-- ==== Sys2Proof/Word.lean ====
section
/-! DEFINITION. The word types of STEG-SGU: bytes of IMG and PAY, 32-bit registers and ORD entries (00_scope.md R6). -/

namespace Sys2Proof

/-- One byte: a colour channel of IMG or a byte of PAY (10_state.md R28, R29). -/
abbrev Byte := BitVec 8

/-- One register word or one ORD entry (00_scope.md R6). -/
abbrev Word := BitVec 32

end Sys2Proof
end

