-- ==== Sys2Proof/Syntax.lean ====
section
/-! DEFINITION. The six commands of STEG-SGU (30_encoding.md R61), one constructor per row of the opcode table. -/

namespace Sys2Proof

/-- A command. It has no operands: every operand is read from a register when the command is accepted
(30_encoding.md R60, R63). An illegal command word is no command of the table; its meaning is `Machine.execIllegal`. -/
inductive Instr where
  | nop
  | ident
  | order
  | scatter
  | gather
  | gathern
deriving DecidableEq, Repr

end Sys2Proof
end

