-- ==== Sys2Proof/WellFormed.lean ====
section
/-! DEFINITION. Well-formedness. A command has no operands, so every command is well formed; what can be ill formed is a
command WORD (30_encoding.md R62), and `legalWord` is the check, written from R61's match and mask columns. -/

namespace Sys2Proof

/-- Every constructor of `Instr` is well formed: a command carries no field that could be out of range (30_encoding.md R63). -/
def Instr.wellFormed : Instr → Bool
  | .nop => true
  | .ident => true
  | .order => true
  | .scatter => true
  | .gather => true
  | .gathern => true

/-- One row of the table of 30_encoding.md R61. -/
structure CommandRow where
  mask : Word
  pattern : Word
  command : Instr
deriving DecidableEq, Repr

/-- The opcode map of 30_encoding.md R61, row by row. -/
def commandTable : List CommandRow :=
  [ { mask := 0xFFFFFFFF, pattern := 0x00000000, command := .nop },
    { mask := 0xFFFFFFFF, pattern := 0x00000001, command := .ident },
    { mask := 0xFFFFFFFF, pattern := 0x00000002, command := .order },
    { mask := 0xFFFFFFFF, pattern := 0x00000003, command := .scatter },
    { mask := 0xFFFFFFFF, pattern := 0x00000004, command := .gather },
    { mask := 0xFFFFFFFF, pattern := 0x00000005, command := .gathern } ]

/-- "a word w is the command of a row exactly when w AND mask = match" (30_encoding.md R61). -/
def CommandRow.selects (r : CommandRow) (w : Word) : Bool :=
  w &&& r.mask == r.pattern

/-- A word that some row of the table selects; every other word is illegal (30_encoding.md R62). -/
def legalWord (w : Word) : Bool :=
  commandTable.any (·.selects w)

end Sys2Proof
end

