-- ==== Sys2Proof/Decode.lean ====
section
/-! DEFINITION. Decoding of a command word by its two fields (30_encoding.md R60 to R62), total on 32-bit words, and the
encoder. -/

namespace Sys2Proof

/-- Why a word is no command (30_encoding.md R62). -/
inductive IllegalWord where
  /-- bits 31:8 are not all 0, whatever OPC is. -/
  | zeroFieldSet
  /-- ZERO is 0 and OPC is in 0x06 to 0xFF. -/
  | reservedOpcode
deriving DecidableEq, Repr

/-- Field OPC, bits 7:0 (30_encoding.md R60). -/
def opcField (w : Word) : BitVec 8 := w.extractLsb' 0 8

/-- Field ZERO, bits 31:8 (30_encoding.md R60). -/
def zeroField (w : Word) : BitVec 24 := w.extractLsb' 8 24

/-- The command a word stands for, or why it is illegal: "A decoder tells the command from OPC alone after checking
ZERO = 0" (30_encoding.md R60). -/
def decode (w : Word) : Except IllegalWord Instr :=
  if zeroField w = 0 then
    match (opcField w).toNat with
    | 0x00 => .ok .nop
    | 0x01 => .ok .ident
    | 0x02 => .ok .order
    | 0x03 => .ok .scatter
    | 0x04 => .ok .gather
    | 0x05 => .ok .gathern
    | _ => .error .reservedOpcode
  else .error .zeroFieldSet

/-- The OPC of a command (30_encoding.md R61, column OPC). -/
def opcode : Instr → BitVec 8
  | .nop => 0x00
  | .ident => 0x01
  | .order => 0x02
  | .scatter => 0x03
  | .gather => 0x04
  | .gathern => 0x05

/-- The command word: ZERO = 0 in bits 31:8, OPC in bits 7:0 (30_encoding.md R60). -/
def encode (i : Instr) : Word := (0 : BitVec 24) ++ opcode i

/-- What the decoder reads from the `nbits` bits `w`, the bits above them 0. A command word is 32 bits, so a number that
does not fit 32 bits is no command. -/
def decodeTableWord (nbits w : Nat) : Option Instr :=
  let v := w % 2 ^ nbits
  if v < 2 ^ 32 then
    match decode (BitVec.ofNat 32 v) with
    | .ok i => some i
    | .error _ => none
  else none

end Sys2Proof
end

