-- ==== Sys2Proof/Machine/Header.lean ====
section
/-! DEFINITION. The payload header as GATHER reads it (41_header.md R80 to R85). The functions take the reader of PAY's
bytes. -/

namespace Sys2Proof.Machine

/-- `HDR_LEN` (00_scope.md R4, 41_header.md R80). -/
def hdrLen : Nat := 41

/-- `magic_ok` (41_header.md R81); the byte values of 'S','T','E','G' are the spec's own from general knowledge, G1 (log 12). -/
def magicOk (pay : Nat → Byte) : Bool :=
  pay 0 == 0x53 && pay 1 == 0x54 && pay 2 == 0x45 && pay 3 == 0x47

/-- `size`, big-endian: PAY[4] is the most significant byte (41_header.md R82). `Laws/Header.lean` gives the rule's sum
PAY[4] × 2^24 + PAY[5] × 2^16 + PAY[6] × 2^8 + PAY[7]. -/
def headerSize (pay : Nat → Byte) : Word := pay 4 ++ pay 5 ++ pay 6 ++ pay 7

/-- The flags byte (41_header.md R84). -/
def headerFlags (pay : Nat → Byte) : Byte := pay 40

/-- The 32 checksum bytes PAY[8..40), carried as plain bytes: the unit never reads their value (41_header.md R83). -/
def headerChecksum (pay : Nat → Byte) : List Byte := (List.range 32).map fun k => pay (8 + k)

/-- Flags bits 1:0: the bits-per-channel value the embedder stored; no rule of the unit reads it (41_header.md R84,
44_gather.md R116). -/
def flagsDepth (flags : Byte) : BitVec 2 := flags.extractLsb' 0 2

/-- Flags bit 2, shown to the host, never acted on (41_header.md R84). -/
def flagsAdaptive (flags : Byte) : Bool := flags.getLsbD 2

/-- Flags bit 3, shown to the host, never acted on (41_header.md R84). -/
def flagsEncrypted (flags : Byte) : Bool := flags.getLsbD 3

/-- Flags bits 7:4, carried and shown unmasked (41_header.md R86). -/
def flagsReserved (flags : Byte) : BitVec 4 := flags.extractLsb' 4 4

end Sys2Proof.Machine
end

