-- ==== Sys2Proof/Machine/BitPath.lean ====
section
/-! DEFINITION. The bit and byte data path: bit stream, groups, insert and extract (40_bit_byte.md R70 to R76). Pure
functions, no state. -/

namespace Sys2Proof.Machine

/-- The two legal values of bits per channel (00_scope.md R4). -/
inductive Depth where
  | one
  | two
deriving DecidableEq, Repr

/-- The legal depth that CTRL.BPC holds, none for 0 and 3 (10_state.md R13). -/
def Depth.ofField (v : BitVec 2) : Option Depth :=
  match v.toNat with
  | 1 => some .one
  | 2 => some .two
  | _ => none

/-- `bpc`. -/
def Depth.bits : Depth → Nat
  | .one => 1
  | .two => 2

/-- `gpb`, groups per byte: 8 / bpc (00_scope.md section 6). -/
def Depth.groupsPerByte (d : Depth) : Nat := 8 / d.bits

/-- `mask = 2^bpc − 1`, as a byte (00_scope.md section 6). -/
def Depth.mask (d : Depth) : Byte := BitVec.ofNat 8 (2 ^ d.bits - 1)

/-- `pbit(i)` of 40_bit_byte.md R73: bit i of the stream of B, `B[i div 8][7 − (i mod 8)]`, and 0 beyond its end. -/
def streamBit (B : List Byte) (i : Nat) : Bool := (B.getD (i / 8) 0).getLsbD (7 - i % 8)

/-- `bits(B)` (40_bit_byte.md R70). -/
def bitsOf (B : List Byte) : List Bool := (List.range (8 * B.length)).map (streamBit B)

/-- `bytes(b)` (40_bit_byte.md R71); none outside its domain, a length that is no multiple of 8. -/
def bytesOf (b : List Bool) : Option (List Byte) :=
  if b.length % 8 = 0 then
    some ((List.range (b.length / 8)).map fun j =>
      BitVec.ofNat 8 ((List.range 8).map fun k => (b.getD (8 * j + k) false).toNat * 2 ^ (7 - k)).sum)
  else none

/-- `group(B, g, bpc)` (40_bit_byte.md R73). -/
def groupValue (B : List Byte) (g : Nat) (d : Depth) : Byte :=
  BitVec.ofNat 8 ((List.range d.bits).map fun t =>
    (streamBit B (g * d.bits + t)).toNat * 2 ^ (d.bits - 1 - t)).sum

/-- `pack(v_0 … v_(gpb−1), bpc)` (40_bit_byte.md R74). -/
def pack (vs : List Byte) (d : Depth) : Byte :=
  BitVec.ofNat 8 ((List.range d.groupsPerByte).map fun k =>
    (vs.getD k 0).toNat * 2 ^ (d.bits * (d.groupsPerByte - 1 - k))).sum

/-- `insert(old, v, bpc) = (old AND NOT_8 mask) OR v` (40_bit_byte.md R75). -/
def insertBits (old v : Byte) (d : Depth) : Byte := (old &&& ~~~d.mask) ||| v

/-- `low(x, bpc) = x AND mask` (40_bit_byte.md R76). -/
def lowBits (x : Byte) (d : Depth) : Byte := x &&& d.mask

end Sys2Proof.Machine
end

