-- ==== Sys2Proof/Config.lean ====
section
/-! DEFINITION. What one instance of the hardware fixes (MAX_PIXELS, 00_scope.md R5) and the free values: contents the spec
leaves undefined (93_implementation_defined.md U1, U3; 10_state.md R27, R28, R32). A free value is an opaque constant without
a body: no proof can learn which value it is. -/

namespace Sys2Proof.Config

/-- A legal MAX_PIXELS, less one: `00_scope.md` R5 gives 1 ≤ MAX_PIXELS ≤ 1 431 655 765, so these are exactly the legal
parameters. Notes: log 1. -/
abbrev PixelLimit := Fin 1431655765

/-- The parameter of this instance, uninterpreted (00_scope.md R5, U8). Every legal value is possible. -/
opaque pixelLimit : PixelLimit

/-- The two byte memories whose contents the spec leaves open until they are written. -/
inductive ByteSpace where
  | img
  | pay
deriving DecidableEq, Repr

/-- THE ONE DEFINITION of what an unlisted byte of IMG or PAY holds: an unknown byte for each memory, epoch and address
(10_state.md R28, R29, R32: "unspecified after power-up"; U3). DESIGN CHOICE, safe: log 4, log 6. -/
opaque undefinedByte : ByteSpace → Nat → Nat → Byte

/-- What an ORD entry that holds no defined value reads as: an unknown word for each epoch and entry (10_state.md R27, U1).
DESIGN CHOICE, safe: log 5. -/
opaque undefinedEntry : Nat → Nat → Word

end Sys2Proof.Config
end

