-- ==== Sys2Proof/Machine/State.lean ====
section
/-! DEFINITION. The state of STEG-SGU as plain data (10_state.md R10 to R32), the host's actions, the reasons a step can
stop, and the state after reset. -/

namespace Sys2Proof.Machine

/-- The six error kinds a command can end with (60_exceptions.md R140). -/
inductive ErrorKind where
  | invalidConfiguration
  | capacityExceeded
  | badMagic
  | insufficientBits
  | orderNotReady
  | invalidCommand
deriving DecidableEq, Repr

/-- One action of the host on the unit's interface (45_system.md R125, R126, R131; 30_encoding.md R65), or the platform's
reset (70_reset_and_hazards.md R160). Register accesses carry the width in bits, so that an access the spec does not
define can be written down and refused (20_memory.md R44, U4). -/
inductive BusAction where
  | regRead (offset bits : Nat)
  | regWrite (offset bits : Nat) (data : Word)
  | imgRead (address : Nat)
  | imgWrite (address : Nat) (data : Byte)
  | payRead (address : Nat)
  | payWrite (address : Nat) (data : Byte)
  | ordRead (entry : Nat)
  | ordWrite (entry : Nat) (data : Word)
  | platformReset
deriving DecidableEq, Repr

/-- What one host read returned. -/
inductive Readback where
  | reg (offset : Nat) (value : Word)
  | img (address : Nat) (value : Byte)
  | pay (address : Nat) (value : Byte)
  | ord (entry : Nat) (value : Word)
deriving DecidableEq, Repr

/-- A byte memory: (address, byte) pairs, addresses strictly rising. An address that is not listed has not been written
since its contents were last undefined; `Config.undefinedByte` says what it holds (log 4). -/
abbrev Memory := List Host.Cell

/-- The whole state. The spec's own: the operand registers, STATUS's fields, the result registers, ORD, IMG, PAY
(10_state.md R10). The model's own: `script`, `readback`, `pixelLimit`, `memEpoch`, `ordEpoch` (INVENTORY.md, State). -/
structure State where
  /-- CTRL.BPC (10_state.md R13). -/
  bpc : BitVec 2
  /-- WIDTH.W (10_state.md R14). -/
  width : BitVec 16
  /-- HEIGHT.H (10_state.md R15). -/
  height : BitVec 16
  /-- SEED (10_state.md R16). -/
  seed : Word
  /-- PAY_LEN (10_state.md R17). -/
  payLen : Word
  /-- STATUS.BUSY (10_state.md R19). -/
  busy : Bool
  /-- STATUS.DONE (10_state.md R19). -/
  done : Bool
  /-- STATUS.ERR (10_state.md R19). -/
  err : Bool
  /-- STATUS.ORD_VALID (10_state.md R19). -/
  ordValid : Bool
  /-- STATUS.ERRCODE (10_state.md R19, 60_exceptions.md R140). -/
  errcode : BitVec 4
  /-- RES_LEN (10_state.md R21). -/
  resLen : Word
  /-- BEATS (10_state.md R22). -/
  beats : Word
  /-- HDR_SIZE (10_state.md R23). -/
  hdrSize : Word
  /-- HDR_FLAGS[7:0]; bits 31:8 read 0 (10_state.md R24). -/
  hdrFlags : Byte
  /-- PRNG (10_state.md R25). -/
  prng : Word
  /-- ORD (10_state.md R27): entry k is defined exactly when k < length; IDENT and ORDER write a prefix, so the defined
  entries always are one (log 5). -/
  ord : List Word
  /-- IMG (10_state.md R28). -/
  img : Memory
  /-- PAY (10_state.md R29). -/
  pay : Memory
  /-- The host's coming actions, the next one first (log 2). -/
  script : List BusAction
  /-- What the host's reads returned, the latest first (log 2). -/
  readback : List Readback
  /-- MAX_PIXELS less one: the parameter of 00_scope.md R5, changed by no step (log 1). -/
  pixelLimit : Config.PixelLimit
  /-- Selects the undefined contents of IMG and PAY (log 6). -/
  memEpoch : Nat
  /-- Selects the undefined contents of ORD (log 5). -/
  ordEpoch : Nat
deriving DecidableEq, Repr

/-- Why a step stops with a fault. Each is raised by `transact` for a HOST access to an address that does not exist
(20_memory.md R40); the unit's own accesses are never out of range (R47). All are safe: the model stops, and the spec gives
such an access no effect (log 9). -/
inductive Fault where
  /-- Host read or write of IMG at an address that is not below IMG_DEPTH = 3 × MAX_PIXELS. Safe. -/
  | imgAddressOutside
  /-- Host read or write of PAY at an address that is not below PAY_DEPTH = floor(3 × MAX_PIXELS / 4). Safe. -/
  | payAddressOutside
  /-- Host read or write of an ORD entry that is not below ORD_DEPTH = MAX_PIXELS. Safe. -/
  | ordEntryOutside
deriving DecidableEq, Repr

/-- Why a step is refused. All are safe: the spec gives the access no result and says that a model refuses it (log 8). -/
inductive Refusal where
  /-- `exec`'s arm of an instruction without a meaning. No arm answers it: every instruction has its meaning. -/
  | notModelled (mnemonic : String)
  /-- Raised by `transact` and by `runCommand`: any access but a STATUS read while BUSY = 1
  (70_reset_and_hazards.md R162, U2). Safe. -/
  | hostAccessWhileBusy
  /-- Raised by `transact`: a REG access narrower or wider than 32 bits (20_memory.md R44, U4). Safe. -/
  | registerAccessNotAWord
  /-- Raised by `transact`: a REG access at an offset that is no multiple of 4 (20_memory.md R44, U4). Safe. -/
  | registerOffsetMisaligned
  /-- Raised by `transact`: a REG access at an offset of 0x40 or above (U4). Safe. -/
  | registerOffsetOutsideWindow
deriving DecidableEq, Repr

/-- The state right after reset (10_state.md R32): every register 0, no entry of ORD defined, IMG and PAY unspecified; no
host action is waiting. The parameter is the uninterpreted one of this instance. -/
def State.reset : State :=
  { bpc := 0, width := 0, height := 0, seed := 0, payLen := 0
    busy := false, done := false, err := false, ordValid := false, errcode := 0
    resLen := 0, beats := 0, hdrSize := 0, hdrFlags := 0, prng := 0
    ord := [], img := [], pay := []
    script := [], readback := []
    pixelLimit := Config.pixelLimit, memEpoch := 0, ordEpoch := 0 }

end Sys2Proof.Machine
end

