-- ==== Sys2Proof/Machine/Flags.lean ====
section
/-! DEFINITION. STATUS: the error codes (60_exceptions.md R140) and the word a read returns (45_system.md R125). These are
the hardware's only flags (10_state.md R19). -/

namespace Sys2Proof.Machine

/-- `code(E)` (60_exceptions.md R140). -/
def ErrorKind.code : ErrorKind → BitVec 4
  | .invalidConfiguration => 1
  | .capacityExceeded => 2
  | .badMagic => 3
  | .insufficientBits => 4
  | .orderNotReady => 5
  | .invalidCommand => 6

/-- `BUSY + 2 × DONE + 4 × ERR + 8 × ORD_VALID + 256 × ERRCODE` (45_system.md R125); all other bits read 0. -/
def State.statusWord (s : State) : Word :=
  BitVec.ofNat 32 (s.busy.toNat + 2 * s.done.toNat + 4 * s.err.toNat + 8 * s.ordValid.toNat + 256 * s.errcode.toNat)

end Sys2Proof.Machine
end

