-- ==== Sys2Proof/Machine/Ops.lean ====
section
/-! DEFINITION. The operations every meaning is built from: reads and writes of the byte memories and of ORD, acceptance and
completion of a command, `raise E` (the unit's one kind of exceptional event), and the reset event. -/

namespace Sys2Proof.Machine

/-! ## Byte memories -/

/-- The byte listed at an address, if any. -/
def Memory.lookup : Memory → Nat → Option Byte
  | [], _ => none
  | (k, b) :: rest, a => if k = a then some b else Memory.lookup rest a

/-- The memory with byte `v` at address `a`; the addresses stay strictly rising. -/
def Memory.store : Memory → Nat → Byte → Memory
  | [], a, v => [(a, v)]
  | (k, b) :: rest, a, v =>
    if a < k then (a, v) :: (k, b) :: rest
    else if a = k then (a, v) :: rest
    else (k, b) :: Memory.store rest a v

/-- Bytes stored one after another from address `a` up. -/
def Memory.storeBytes : Memory → Nat → List Byte → Memory
  | m, _, [] => m
  | m, a, v :: vs => Memory.storeBytes (m.store a v) (a + 1) vs

/-- Every listed address is above `lo` and the addresses rise strictly. -/
def Memory.risingFrom : Nat → Memory → Bool
  | _, [] => true
  | lo, (k, _) :: rest => lo ≤ k && Memory.risingFrom (k + 1) rest

/-- The canonical form: addresses strictly rising. (An unlisted address holds no value the model knows, so no entry can
equal it; log 4.) -/
def Memory.wf (m : Memory) : Bool := m.risingFrom 0

/-- The byte a memory holds at an address: what is listed, or the undefined byte of that space and epoch. -/
def Memory.readAs (m : Memory) (space : Config.ByteSpace) (epoch a : Nat) : Byte :=
  (m.lookup a).getD (Config.undefinedByte space epoch a)

/-- `IMG[a]` (00_scope.md section 6). -/
def State.imgByte (s : State) (a : Nat) : Byte := s.img.readAs .img s.memEpoch a

/-- `PAY[i]` (00_scope.md section 6). -/
def State.payByte (s : State) (i : Nat) : Byte := s.pay.readAs .pay s.memEpoch i

/-- `ORD[k]` (00_scope.md section 6): what the entry holds, or an undefined word (10_state.md R27, U1). -/
def State.ordEntry (s : State) (k : Nat) : Word := s.ord.getD k (Config.undefinedEntry s.ordEpoch k)

/-- IDENT's and ORDER's writes `ORD[k] <- l[k]` for k < length of l, and `STATUS.ORD_VALID <- 1`; the entries above keep
what they held (10_state.md R27, 42_order.md R93, R95). -/
def State.selectOrder (s : State) (l : List Word) : State :=
  { s with ord := l ++ s.ord.drop l.length, ordValid := true }

/-! ## Sizes -/

/-- MAX_PIXELS (00_scope.md R5). -/
def State.maxPixels (s : State) : Nat := s.pixelLimit.val + 1

/-- ORD_DEPTH (00_scope.md R5). -/
def State.ordDepth (s : State) : Nat := s.maxPixels

/-- IMG_DEPTH (00_scope.md R5). -/
def State.imgDepth (s : State) : Nat := 3 * s.maxPixels

/-- PAY_DEPTH (00_scope.md R5). -/
def State.payDepth (s : State) : Nat := 3 * s.maxPixels / 4

/-! ## Acceptance, errors and completion -/

/-- The prologue of every command (45_system.md R127). It clears what the last error left: the unit's only "return" from
an error (60_exceptions.md R152). -/
def State.accept (s : State) : State :=
  { s with busy := true, done := false, err := false, errcode := 0
           resLen := 0, beats := 0, hdrSize := 0, hdrFlags := 0 }

/-- How the body of a command ended (45_system.md R128): at its last statement, or by `raise E`. -/
inductive Ended where
  | normally (s : State)
  | raised (e : ErrorKind) (s : State)
deriving DecidableEq, Repr

/-- The epilogue's last line: `STATUS.BUSY <- 0; STATUS.DONE <- 1` (45_system.md R128). -/
def State.complete (s : State) : State := { s with busy := false, done := true }

/-- TAKING AN ERROR, the one operation for all of them (60_exceptions.md R141, 45_system.md R128): the code and ERR are
recorded; no register is saved, nothing written before is undone, there is no handler, vector or mode change. -/
def State.raiseError (s : State) (e : ErrorKind) : State := { s with errcode := e.code, err := true }

/-- The epilogue (45_system.md R128). -/
def Ended.finish : Ended → State
  | .normally s => s.complete
  | .raised e s => (s.raiseError e).complete

/-- A command as one indivisible step of its CMD write (45_system.md R127, R128, R133): prologue, body, epilogue. A CMD
write while BUSY = 1 has no defined result and is refused (70_reset_and_hazards.md R162). -/
def runCommand (body : State → Ended) (s : State) : Host.Outcome State Fault Refusal :=
  if s.busy then .refused .hostAccessWhileBusy
  else .next (body s.accept).finish

/-! ## Reset -/

/-- The reset event (70_reset_and_hazards.md R160, 10_state.md R32): every register 0, ORD without defined content (a new
epoch of undefined entries), IMG and PAY untouched; but a reset while a command runs leaves IMG and PAY undefined too
(U3, log 6). -/
def State.platformReset (s : State) : State :=
  { s with
    bpc := 0, width := 0, height := 0, seed := 0, payLen := 0
    busy := false, done := false, err := false, ordValid := false, errcode := 0
    resLen := 0, beats := 0, hdrSize := 0, hdrFlags := 0, prng := 0
    ord := [], ordEpoch := s.ordEpoch + 1
    img := if s.busy then [] else s.img
    pay := if s.busy then [] else s.pay
    memEpoch := if s.busy then s.memEpoch + 1 else s.memEpoch }

/-- What a host read returned is given to the host; nothing else changes (45_system.md R125, R131). -/
def State.answer (s : State) (r : Readback) : State := { s with readback := r :: s.readback }

end Sys2Proof.Machine
end

