-- ==== Sys2Proof/Machine/Operands.lean ====
section
/-! DEFINITION. The operands of a command, all read from registers (30_encoding.md R63), the capacity (43_scatter.md R100),
the walk's addresses (20_memory.md R41, 43_scatter.md R101), and the checks that the data commands share. -/

namespace Sys2Proof.Machine

/-- `N = WIDTH.W × HEIGHT.H` (00_scope.md section 6, 10_state.md R15). -/
def State.pixels (s : State) : Nat := s.width.toNat * s.height.toNat

/-- `cap(N, bpc) = floor(N × 3 × bpc / 8)` (43_scatter.md R100). -/
def capacity (n : Nat) (d : Depth) : Nat := n * 3 * d.bits / 8

/-- `chan_addr(p, c) = 3 × p + c` (20_memory.md R41). -/
def chanAddr (p c : Nat) : Nat := 3 * p + c

/-- `addr(g)`: the IMG address of the channel that carries group g (43_scatter.md R101). -/
def State.walkAddr (s : State) (g : Nat) : Nat := chanAddr (s.ordEntry (g / 3)).toNat (g % 3)

/-- `PAY[0..L)` (43_scatter.md R102). -/
def State.payload (s : State) (len : Nat) : List Byte := (List.range len).map s.payByte

/-- The first two checks of SCATTER, GATHER and GATHERN, in their order (60_exceptions.md R148): a legal CTRL.BPC, then
STATUS.ORD_VALID; the rest of the body gets the legal depth. -/
def withLegalWalk (body : Depth → State → Ended) (s : State) : Ended :=
  match Depth.ofField s.bpc with
  | none => .raised .invalidConfiguration s
  | some d => if s.ordValid then body d s else .raised .orderNotReady s

end Sys2Proof.Machine
end

