-- ==== Sys2Proof/Machine/Gather.lean ====
section
/-! DEFINITION. The gather engine: GATHERN (44_gather.md R111) and GATHER (R112). -/

namespace Sys2Proof.Machine

/-- `gather_byte(j)` (44_gather.md R110). -/
def State.gatherByte (s : State) (d : Depth) (j : Nat) : Byte :=
  pack ((List.range d.groupsPerByte).map fun k => lowBits (s.imgByte (s.walkAddr (j * d.groupsPerByte + k))) d) d

/-- `for j in first..first+count−1: PAY[j] <- gather_byte(j)` (44_gather.md R111, R112), with the result registers as they
stand when `first + count` bytes are gathered. -/
def State.gatherTo (s : State) (d : Depth) (first count : Nat) : State :=
  { s with
    pay := s.pay.storeBytes first ((List.range count).map fun k => s.gatherByte d (first + k))
    resLen := BitVec.ofNat 32 (first + count)
    beats := BitVec.ofNat 32 ((first + count) * d.groupsPerByte) }

/-- The body of GATHERN after the configuration and order checks (44_gather.md R111). -/
def gathernWalk (d : Depth) (s : State) : Ended :=
  let len := s.payLen.toNat
  if capacity s.pixels d < len then .raised .insufficientBits s
  else .normally (s.gatherTo d 0 len)

/-- GATHERN (44_gather.md R111). -/
def execGathern (s : State) : Host.Outcome State Fault Refusal := runCommand (withLegalWalk gathernWalk) s

/-- `HDR_SIZE <- size; HDR_FLAGS <- zext_32(PAY[40])` (41_header.md R85). -/
def State.recordHeader (s : State) : State :=
  { s with hdrSize := headerSize s.payByte, hdrFlags := headerFlags s.payByte }

/-- The body of GATHER after the configuration and order checks (44_gather.md R112): the header phase, the magic, the
size, then the body phase. The comparison with 41 + size is on natural numbers, never truncated (40_bit_byte.md R78). -/
def gatherWalk (d : Depth) (s : State) : Ended :=
  let cap := capacity s.pixels d
  if cap < hdrLen then .raised .insufficientBits s
  else
    let h := s.gatherTo d 0 hdrLen
    if magicOk h.payByte then
      let p := h.recordHeader
      let size := p.hdrSize.toNat
      if cap < hdrLen + size then .raised .insufficientBits p
      else .normally (p.gatherTo d hdrLen size)
    else .raised .badMagic h

/-- GATHER (44_gather.md R112). -/
def execGather (s : State) : Host.Outcome State Fault Refusal := runCommand (withLegalWalk gatherWalk) s

end Sys2Proof.Machine
end

