-- ==== Sys2Proof/Machine/Prng.lean ====
section
/-! DEFINITION. The pinned generator, the bounded draw and the shuffle (42_order.md R90 to R92, the loop of R95). -/

namespace Sys2Proof.Machine

/-- `xs32(s)` (42_order.md R90); a left shift of a 32-bit vector drops what leaves it, the rule's "mod 2^32". -/
def xs32 (s : Word) : Word :=
  let a := s ^^^ (s <<< 13)
  let b := a ^^^ (a >>> 17)
  b ^^^ (b <<< 5)

/-- `seed_state(seed)` (42_order.md R91). -/
def seedState (seed : Word) : Word := if seed = 0 then 0x9E3779B9 else seed

/-- `bounded(s, m) = (s × m) >> 32`, the product unbounded (42_order.md R92). -/
def bounded (s : Word) (m : Nat) : Nat := s.toNat * m / 2 ^ 32

/-- The swap of entries i and j of R95's loop: `t <- ORD[i]; ORD[i] <- ORD[j]; ORD[j] <- t`. -/
def swapEntries (l : List Word) (i j : Nat) : List Word :=
  (l.set i (l.getD j 0)).set j (l.getD i 0)

/-- The loop of 42_order.md R95 for the indices i, i − 1, …, 1: the generator's state and the table it leaves. -/
def shuffleFrom : Nat → Word → List Word → Word × List Word
  | 0, s, l => (s, l)
  | i + 1, s, l =>
    let s' := xs32 s
    shuffleFrom i s' (swapEntries l (i + 1) (bounded s' (i + 1 + 1)))

/-- The identity sequence 0, 1, …, n − 1 (42_order.md R93, and step 1 of R95). -/
def identityOrder (n : Nat) : List Word := (List.range n).map (BitVec.ofNat 32)

/-- ORDER's final generator state and its order of n pixels (42_order.md R95). -/
def shuffledOrder (n : Nat) (seed : Word) : Word × List Word :=
  shuffleFrom (n - 1) (seedState seed) (identityOrder n)

end Sys2Proof.Machine
end

