-- ==== Sys2Proof/Machine/Order.lean ====
section
/-! DEFINITION. The pixel-order selector: IDENT (42_order.md R93) and ORDER (R95). -/

namespace Sys2Proof.Machine

/-- The body of IDENT (42_order.md R93). -/
def identBody (s : State) : Ended :=
  if s.maxPixels < s.pixels then .raised .invalidConfiguration s
  else .normally (s.selectOrder (identityOrder s.pixels))

/-- IDENT (42_order.md R93). -/
def execIdent (s : State) : Host.Outcome State Fault Refusal := runCommand identBody s

/-- `PRNG <- s` (42_order.md R95). -/
def State.recordPrng (s : State) (v : Word) : State := { s with prng := v }

/-- The body of ORDER (42_order.md R95). -/
def orderBody (s : State) : Ended :=
  if s.maxPixels < s.pixels then .raised .invalidConfiguration s
  else
    let r := shuffledOrder s.pixels s.seed
    .normally ((s.recordPrng r.1).selectOrder r.2)

/-- ORDER (42_order.md R95). -/
def execOrder (s : State) : Host.Outcome State Fault Refusal := runCommand orderBody s

end Sys2Proof.Machine
end

