-- ==== Sys2Proof/Machine/Scatter.lean ====
section
/-! DEFINITION. The scatter engine (43_scatter.md R102, R103). -/

namespace Sys2Proof.Machine

/-- `G = 8 × L / bpc`, the number of groups of L bytes (40_bit_byte.md R73, 43_scatter.md R102). -/
def groupCount (len : Nat) (d : Depth) : Nat := 8 * len / d.bits

/-- `beat_scatter(g)` (43_scatter.md R103) on the image memory `m`; ORD and the undefined bytes are those of `s`. -/
def scatterBeat (s : State) (B : List Byte) (d : Depth) (m : Memory) (g : Nat) : Memory :=
  let a := s.walkAddr g
  m.store a (insertBits (m.readAs .img s.memEpoch a) (groupValue B g d) d)

/-- The beats of a list of groups, in the list's order. -/
def scatterBeats (s : State) (B : List Byte) (d : Depth) (gs : List Nat) : Memory :=
  gs.foldl (scatterBeat s B d) s.img

/-- The loop of 43_scatter.md R102 and the result registers: the beats g = 0, 1, …, G − 1 of the first `len` bytes of PAY. -/
def State.scatterFrom (s : State) (d : Depth) (len : Nat) : State :=
  { s with
    img := scatterBeats s (s.payload len) d (List.range (groupCount len d))
    resLen := BitVec.ofNat 32 len
    beats := BitVec.ofNat 32 (groupCount len d) }

/-- The body of SCATTER after the configuration and order checks (43_scatter.md R102). -/
def scatterWalk (d : Depth) (s : State) : Ended :=
  let len := s.payLen.toNat
  if capacity s.pixels d < len then .raised .capacityExceeded s
  else
    .normally (s.scatterFrom d len)

/-- SCATTER (43_scatter.md R102). -/
def execScatter (s : State) : Host.Outcome State Fault Refusal := runCommand (withLegalWalk scatterWalk) s

end Sys2Proof.Machine
end

