-- ==== Sys2Proof/Machine/System.lean ====
section
/-! DEFINITION. NOP (45_system.md R129) and the illegal command word (R130). -/

namespace Sys2Proof.Machine

/-- NOP: prologue, empty body, epilogue (45_system.md R129). -/
def execNop (s : State) : Host.Outcome State Fault Refusal := runCommand .normally s

/-- An illegal command word: prologue, `raise InvalidCommand`, epilogue (45_system.md R130, 60_exceptions.md R147). -/
def execIllegal (s : State) : Host.Outcome State Fault Refusal := runCommand (.raised .invalidCommand) s

end Sys2Proof.Machine
end

