-- ==== Sys2Proof/Machine/Dispatch.lean ====
section
/-! DEFINITION. The dispatch: one arm per command of the opcode table. -/

namespace Sys2Proof.Machine

def exec (i : Instr) (s : State) : Host.Outcome State Fault Refusal :=
  match i with
  | .nop => Sys2Proof.Machine.execNop s
  | .ident => Sys2Proof.Machine.execIdent s
  | .order => Sys2Proof.Machine.execOrder s
  | .scatter => Sys2Proof.Machine.execScatter s
  | .gather => Sys2Proof.Machine.execGather s
  | .gathern => Sys2Proof.Machine.execGathern s

end Sys2Proof.Machine
end

