-- ==== Sys2Proof/Machine/Registers.lean ====
section
/-! DEFINITION. The register window REG: its map (10_state.md R11), what a read returns (45_system.md R125) and what a write
does (R126). -/

namespace Sys2Proof.Machine

/-- The words of the window (10_state.md R11); the three reserved words behave alike (R26). -/
inductive Reg where
  | ctrl | width | height | seed | payLen | cmd | status | capacity | resLen | beats | hdrSize | hdrFlags | prng
  | reserved
deriving DecidableEq, Repr

/-- The register at an aligned offset of the window (10_state.md R11). -/
def Reg.atOffset (offset : Nat) : Reg :=
  match offset with
  | 0x00 => .ctrl
  | 0x04 => .width
  | 0x08 => .height
  | 0x0C => .seed
  | 0x10 => .payLen
  | 0x14 => .cmd
  | 0x18 => .status
  | 0x1C => .capacity
  | 0x20 => .resLen
  | 0x24 => .beats
  | 0x28 => .hdrSize
  | 0x2C => .hdrFlags
  | 0x30 => .prng
  | _ => .reserved

/-- CAPACITY: `cap(N, BPC)` of the registers as they are now, 0 when BPC is 0 or 3 (10_state.md R20). -/
def State.capacityWord (s : State) : Word :=
  match Depth.ofField s.bpc with
  | some d => BitVec.ofNat 32 (Machine.capacity s.pixels d)
  | none => 0

/-- What a register read returns (45_system.md R125). -/
def State.regValue (s : State) : Reg → Word
  | .ctrl => s.bpc.setWidth 32
  | .width => s.width.setWidth 32
  | .height => s.height.setWidth 32
  | .seed => s.seed
  | .payLen => s.payLen
  | .cmd => 0
  | .status => s.statusWord
  | .capacity => s.capacityWord
  | .resLen => s.resLen
  | .beats => s.beats
  | .hdrSize => s.hdrSize
  | .hdrFlags => s.hdrFlags.setWidth 32
  | .prng => s.prng
  | .reserved => 0

/-- What a write to a register other than CMD does (45_system.md R126). CMD is the command port: `transact` runs the
command instead, and nothing is stored in it (10_state.md R18). -/
def State.regWrite (s : State) (r : Reg) (v : Word) : State :=
  match r with
  | .ctrl => { s with bpc := v.extractLsb' 0 2 }
  | .width => { s with width := v.extractLsb' 0 16, ordValid := false }
  | .height => { s with height := v.extractLsb' 0 16, ordValid := false }
  | .seed => { s with seed := v }
  | .payLen => { s with payLen := v }
  | .cmd | .status | .capacity | .resLen | .beats | .hdrSize | .hdrFlags | .prng | .reserved => s

/-- Why a REG access of a given offset and width has no meaning, if it has none (20_memory.md R44, U4). -/
def badRegisterAccess (offset bits : Nat) : Option Refusal :=
  if bits ≠ 32 then some .registerAccessNotAWord
  else if offset % 4 ≠ 0 then some .registerOffsetMisaligned
  else if 0x40 ≤ offset then some .registerOffsetOutsideWindow
  else none

end Sys2Proof.Machine
end

