-- ==== Sys2Proof/Machine/Transactions.lean ====
section
/-! DEFINITION. What one action of the host does (45_system.md R125, R126, R131; 70_reset_and_hazards.md R160, R162): the
unit's whole interface. A write to CMD is where a command word is decoded and run. -/

namespace Sys2Proof.Machine

/-- A write of `w` to CMD while idle: every word is accepted, legal or not (45_system.md R127, R130). -/
def runWord (w : Word) (s : State) : Host.Outcome State Fault Refusal :=
  match decode w with
  | .ok i => exec i s
  | .error _ => execIllegal s

/-- A register read (45_system.md R125): "STATUS.BUSY = 0, or o = 0x18 (STATUS)". -/
def hostRegRead (offset bits : Nat) (s : State) : Host.Outcome State Fault Refusal :=
  match badRegisterAccess offset bits with
  | some r => .refused r
  | none =>
    let reg := Reg.atOffset offset
    if s.busy && reg != .status then .refused .hostAccessWhileBusy
    else .next (s.answer (.reg offset (s.regValue reg)))

/-- A register write (45_system.md R126). -/
def hostRegWrite (offset bits : Nat) (v : Word) (s : State) : Host.Outcome State Fault Refusal :=
  match badRegisterAccess offset bits with
  | some r => .refused r
  | none =>
    let reg := Reg.atOffset offset
    if s.busy then .refused .hostAccessWhileBusy
    else if reg = .cmd then runWord v s
    else .next (s.regWrite reg v)

/-- A host access to IMG, PAY or ORD (45_system.md R131): only while idle, only at an address that exists. -/
def hostMemAccess (inside : Bool) (outside : Fault) (effect : State → State) (s : State) :
    Host.Outcome State Fault Refusal :=
  if s.busy then .refused .hostAccessWhileBusy
  else if inside then .next (effect s)
  else .fault outside

/-- A host read of an ORD entry (45_system.md R131). Reading an entry without a defined value returns any value (U1), and
the next such read may return another: the epoch advances (log 5). -/
def State.readOrder (s : State) (k : Nat) : State :=
  let r := s.answer (.ord k (s.ordEntry k))
  if k < s.ord.length then r else { r with ordEpoch := s.ordEpoch + 1 }

/-- One action of the host, or the platform's reset. A host write to ORD is ignored (45_system.md R131). -/
def transact (act : BusAction) (s : State) : Host.Outcome State Fault Refusal :=
  match act with
  | .regRead o n => hostRegRead o n s
  | .regWrite o n v => hostRegWrite o n v s
  | .imgRead a => hostMemAccess (a < s.imgDepth) .imgAddressOutside (fun t => t.answer (.img a (t.imgByte a))) s
  | .imgWrite a v => hostMemAccess (a < s.imgDepth) .imgAddressOutside (fun t => { t with img := t.img.store a v }) s
  | .payRead a => hostMemAccess (a < s.payDepth) .payAddressOutside (fun t => t.answer (.pay a (t.payByte a))) s
  | .payWrite a v => hostMemAccess (a < s.payDepth) .payAddressOutside (fun t => { t with pay := t.pay.store a v }) s
  | .ordRead k => hostMemAccess (k < s.ordDepth) .ordEntryOutside (fun t => t.readOrder k) s
  | .ordWrite k _ => hostMemAccess (k < s.ordDepth) .ordEntryOutside id s
  | .platformReset => .next s.platformReset

/-- The host's next action is taken from the script and performed; with no action waiting the unit stays idle: "It starts
nothing on its own" (45_system.md R128). -/
def perform (s : State) : Host.Outcome State Fault Refusal :=
  match s.script with
  | [] => .next s
  | act :: rest => transact act { s with script := rest }

/-- The host action that delivers a command word: a 32-bit write to CMD, offset 0x14 (30_encoding.md R60). -/
def commandWrite (w : Word) : BusAction := .regWrite 0x14 32 w

end Sys2Proof.Machine
end

