-- ==== Sys2Proof/Machine/Step.lean ====
section
/-! DEFINITION. One step: the next action of the host (log 2, log 3). -/

namespace Sys2Proof.Machine

/-- One step of the machine: the host's next action, a CMD write with its whole command as one indivisible step
(45_system.md R133). -/
def step (s : State) : Host.Outcome State Fault Refusal := perform s

/-- The state whose next step runs the command word `w` (its `nbits` bits, the bits above them 0): the unit has no program
counter and no fetch; a command is the data of the host's next CMD write (10_state.md R12, log 2). -/
def State.withFetchWord (s : State) (nbits w : Nat) : State :=
  { s with script := commandWrite (BitVec.ofNat 32 (w % 2 ^ nbits)) :: s.script }

end Sys2Proof.Machine
end

