-- ==== Sys2Proof/Safety.lean ====
section
/-! DEFINITION. What holds in every state a run reaches (`Inv`), and the words claims are stated in: which parts of the state
two states agree on. -/

namespace Sys2Proof.Machine

/-- "ORD[0..N) holds a permutation of [0, N) for the N of the current WIDTH and HEIGHT" and N ≤ MAX_PIXELS
(10_state.md R19, R27). -/
def State.OrderReady (s : State) : Prop :=
  s.pixels ≤ s.maxPixels ∧ s.pixels ≤ s.ord.length ∧
    List.Perm ((s.ord.take s.pixels).map BitVec.toNat) (List.range s.pixels)

/-- Every listed address of a memory is below a depth. -/
def Memory.Below (m : Memory) (depth : Nat) : Prop := ∀ c ∈ m, c.1 < depth

/-- The invariant: what every reachable state satisfies at the points where the host can act. -/
structure State.Inv (s : State) : Prop where
  /-- In the atomic view BUSY reads 0 wherever the host can read it (45_system.md R133). -/
  idle : s.busy = false
  /-- "STATUS.ORD_VALID = 1 implies ORD[0..N) is a permutation of [0, N) and N ≤ MAX_PIXELS" (10_state.md R27). -/
  orderGuarded : s.ordValid = true → s.OrderReady
  /-- "ERR = 1 exactly when ERRCODE ≠ 0" (10_state.md R19). -/
  errShowsCode : s.err = true ↔ s.errcode ≠ 0
  /-- "Codes 7 to 15 are never produced" (60_exceptions.md R140). -/
  codeLegal : s.errcode.toNat ≤ 6
  /-- An error is the error of a completed command (10_state.md R19). -/
  errIsDone : s.err = true → s.done = true
  /-- ORD has ORD_DEPTH entries (10_state.md R27). -/
  ordFits : s.ord.length ≤ s.ordDepth
  /-- IMG is canonical and holds nothing outside its space (20_memory.md R40, R47). -/
  imgWf : s.img.wf = true
  imgFits : s.img.Below s.imgDepth
  /-- PAY is canonical and holds nothing outside its space (20_memory.md R40, R47). -/
  payWf : s.pay.wf = true
  payFits : s.pay.Below s.payDepth
  /-- RES_LEN never exceeds the largest capacity (10_state.md R21). -/
  resLenFits : s.resLen.toNat ≤ s.payDepth
  /-- "Its largest value is 3 × N ≤ 3 × MAX_PIXELS" (10_state.md R22). -/
  beatsFits : s.beats.toNat ≤ s.imgDepth

/-- The operand registers agree: CTRL, WIDTH, HEIGHT, SEED, PAY_LEN (10_state.md R11). -/
def State.SameOperands (s t : State) : Prop :=
  t.bpc = s.bpc ∧ t.width = s.width ∧ t.height = s.height ∧ t.seed = s.seed ∧ t.payLen = s.payLen

/-- The order table and its guard agree (10_state.md R19, R27); undefined entries stay the same undefined entries. -/
def State.SameOrder (s t : State) : Prop :=
  t.ordValid = s.ordValid ∧ t.ord = s.ord ∧ t.ordEpoch = s.ordEpoch

/-- Every byte of IMG reads the same. -/
def State.SameImage (s t : State) : Prop := ∀ a, t.imgByte a = s.imgByte a

/-- Every byte of PAY reads the same. -/
def State.SamePayload (s t : State) : Prop := ∀ a, t.payByte a = s.payByte a

/-- What lies outside the unit agrees: the host's coming actions, what it has read, the parameter, the contents of
unwritten bytes. -/
def State.SameSurroundings (s t : State) : Prop :=
  t.script = s.script ∧ t.readback = s.readback ∧ t.pixelLimit = s.pixelLimit ∧ t.memEpoch = s.memEpoch

/-- STATUS after a command that ended normally: BUSY 0, DONE 1, ERR 0, ERRCODE 0 (45_system.md R128). -/
def State.EndedWell (t : State) : Prop :=
  t.busy = false ∧ t.done = true ∧ t.err = false ∧ t.errcode = 0

/-- STATUS after a command that ended by `raise e`: BUSY 0, DONE 1, ERR 1, ERRCODE the code of e (45_system.md R128). -/
def State.EndedWith (t : State) (e : ErrorKind) : Prop :=
  t.busy = false ∧ t.done = true ∧ t.err = true ∧ t.errcode = e.code

/-- The result registers RES_LEN, BEATS, HDR_SIZE, HDR_FLAGS (10_state.md R21 to R24). -/
def State.Results (t : State) (resLen beats hdrSize : Nat) (hdrFlags : Byte) : Prop :=
  t.resLen = BitVec.ofNat 32 resLen ∧ t.beats = BitVec.ofNat 32 beats ∧
    t.hdrSize = BitVec.ofNat 32 hdrSize ∧ t.hdrFlags = hdrFlags

/-- Everything but STATUS and the result registers agrees: what "the state before the command with only STATUS and the
result registers changed" keeps (60_exceptions.md R149). -/
def State.SameButStatus (s t : State) : Prop :=
  s.SameOperands t ∧ s.SameOrder t ∧ t.prng = s.prng ∧ s.SameImage t ∧ s.SamePayload t ∧ s.SameSurroundings t

/-- The next state changed by `f`; a fault or refusal as it is. For claims that a register is not read: changing it
before the command or after it gives the same outcome. -/
def mapNext (f : State → State) : Host.Outcome State Fault Refusal → Host.Outcome State Fault Refusal
  | .next t => .next (f t)
  | .fault r => .fault r
  | .refused r => .refused r

end Sys2Proof.Machine
end

