-- ==== Sys2Proof/Certificates/Slice0/Obligations.lean ====
section
/-! DEFINITION. The statements for the provers, from the numbered rules of spec/. Each holds of every state, those no run
reaches included, unless it takes `State.Inv` or `State.OrderReady` as a premise; both follow from the invariant that every
step keeps. -/

open Sys2Proof Sys2Proof.Machine

/-! ## Encoding and step -/

/-- 30_encoding.md R61, R60: the six words written out, and two illegal ones of R62. -/
def Obligations.CommandWordsDecode : Prop :=
  decode 0x00000000 = .ok .nop ∧ decode 0x00000001 = .ok .ident ∧ decode 0x00000002 = .ok .order ∧
  decode 0x00000003 = .ok .scatter ∧ decode 0x00000004 = .ok .gather ∧ decode 0x00000005 = .ok .gathern ∧
  decode 0x00000006 = .error .reservedOpcode ∧ decode 0x00000103 = .error .zeroFieldSet

/-- 30_encoding.md R61: a word is a command exactly when it is that command's one word, and exactly when the row's
`w AND mask = match` holds; so decoding an encoded command gives it back and no word has two meanings. -/
def Obligations.EachCommandHasExactlyOneWord : Prop :=
  (∀ i, decode (encode i) = .ok i) ∧
  (∀ w i, decode w = .ok i → w = encode i) ∧
  (∀ w, ∀ row ∈ commandTable, (w &&& row.mask = row.pattern ↔ decode w = .ok row.command)) ∧
  (∀ i, ∃ row ∈ commandTable, row.command = i ∧ row.mask = 0xFFFFFFFF)

/-- 30_encoding.md R62: the illegal words are those with OPC in 0x06 to 0xFF or ZERO ≠ 0. -/
def Obligations.IllegalWordsAreReservedOpcodeOrZeroFieldSet : Prop :=
  ∀ w : Word, (∃ e, decode w = .error e) ↔ (6 ≤ (w.toNat % 256) ∨ w.toNat / 256 ≠ 0)

/-- 10_state.md R12, 45_system.md R127, R128: the machine's step takes the host's next action; a CMD write of a word that
decodes to i is `exec i` of the state without that action; with no action waiting nothing happens. The queue of host
actions is the model's own (log 2). -/
def Obligations.StepRunsTheDecodedCommand : Prop :=
  (∀ s w rest i, s.script = .regWrite 0x14 32 w :: rest → decode w = .ok i →
    step s = exec i { s with script := rest }) ∧
  (∀ s act rest, s.script = act :: rest → step s = transact act { s with script := rest }) ∧
  (∀ s nbits w i, decodeTableWord nbits w = some i → step (s.withFetchWord nbits w) = exec i s) ∧
  (∀ s, s.script = [] → step s = .next s)

/-! ## Reset and the invariant -/

/-- 10_state.md R32: after reset every register of the window reads 0 (CTRL.BPC, WIDTH.W, …, CAPACITY, CMD, the reserved
words), no command is in progress, ORD holds no defined value, IMG and PAY are not changed. Both the state after power-up
and the reset event of any idle state; a reset while a command runs also leaves every register 0 and DONE 0. -/
def Obligations.ResetClearsRegistersAndKeepsMemories : Prop :=
  (∀ r, State.reset.regValue r = 0) ∧ State.reset.busy = false ∧ State.reset.ord = [] ∧
  (∀ s, ∃ t, transact .platformReset s = .next t ∧ (∀ r, t.regValue r = 0) ∧ t.busy = false ∧ t.done = false ∧
    t.ord = [] ∧ (s.busy = false → s.SameImage t ∧ s.SamePayload t))

/-- The invariant holds after reset (10_state.md R27, R19; 45_system.md R133). -/
def Obligations.InvariantHoldsAtReset : Prop := State.reset.Inv

/-- HEADLINE. Every step keeps the invariant: a valid order table is a permutation within the hardware's size, the memories
are canonical and hold nothing outside their spaces (the form is the model's: log 4), ERR and ERRCODE agree, the result registers stay in range, BUSY reads
0 (10_state.md R19, R21, R22, R27; 20_memory.md R47; 60_exceptions.md R140; 45_system.md R133). -/
def Obligations.InvariantKeptByEveryStep : Prop :=
  ∀ s s', s.Inv → step s = .next s' → s'.Inv

/-- A step of an idle machine leaves it idle and takes exactly one action; the parameter MAX_PIXELS never changes, and
the host learns at most one value (45_system.md R133, 00_scope.md R5). The script and the readback are the model's own
(log 1, log 2). -/
def Obligations.StepTakesOneActionAndKeepsTheParameter : Prop :=
  ∀ s s', step s = .next s' →
    s'.script = s.script.tail ∧ s'.pixelLimit = s.pixelLimit ∧
    (s'.readback = s.readback ∨ ∃ r, s'.readback = r :: s.readback) ∧
    (s.busy = false → s'.busy = false)

/-! ## Host transactions -/

/-- 45_system.md R125: what a read of each of the sixteen words returns, and that it has no effect on the unit's state;
STATUS may also be read while BUSY = 1, no other register. -/
def Obligations.RegisterReadsReturnTheirRegister : Prop :=
  (∀ (s : State) (o : Nat), s.busy = true → o ≠ 0x18 → ∃ r, transact (.regRead o 32) s = .refused r) ∧
  ∀ s : State, s.busy = false →
    (∀ p ∈ ([(0x00, s.bpc.setWidth 32), (0x04, s.width.setWidth 32), (0x08, s.height.setWidth 32), (0x0C, s.seed),
        (0x10, s.payLen), (0x14, 0), (0x20, s.resLen), (0x24, s.beats), (0x28, s.hdrSize),
        (0x2C, s.hdrFlags.setWidth 32), (0x30, s.prng), (0x34, 0), (0x38, 0), (0x3C, 0),
        (0x1C, if s.bpc = 1 ∨ s.bpc = 2
          then BitVec.ofNat 32 (s.width.toNat * s.height.toNat * 3 * s.bpc.toNat / 8) else 0)] : List (Nat × Word)),
      transact (.regRead p.1 32) s = .next { s with readback := .reg p.1 p.2 :: s.readback }) ∧
    (∀ b, transact (.regRead 0x18 32) { s with busy := b } = .next { s with
      busy := b
      readback := .reg 0x18 (BitVec.ofNat 32 (b.toNat + 2 * s.done.toNat + 4 * s.err.toNat +
        8 * s.ordValid.toNat + 256 * s.errcode.toNat)) :: s.readback })

/-- 10_state.md R19: the place of every field in the STATUS word; the reserved bits read 0. -/
def Obligations.StatusWordHasItsFieldsInPlace : Prop :=
  ∀ s : State, (s.regValue .status).getLsbD 0 = s.busy ∧ (s.regValue .status).getLsbD 1 = s.done ∧
    (s.regValue .status).getLsbD 2 = s.err ∧ (s.regValue .status).getLsbD 3 = s.ordValid ∧
    (s.regValue .status).extractLsb' 4 4 = 0 ∧ (s.regValue .status).extractLsb' 8 4 = s.errcode ∧
    (s.regValue .status).extractLsb' 12 20 = 0

/-- 45_system.md R126: the effect of a write to each of the sixteen words while BUSY = 0; nothing else changes. No write
while BUSY = 1. -/
def Obligations.RegisterWritesChangeTheirRegisterOnly : Prop :=
  (∀ (s : State) (o : Nat) (v : Word), s.busy = true → ∃ r, transact (.regWrite o 32 v) s = .refused r) ∧
  ∀ (s : State) (v : Word), s.busy = false →
    transact (.regWrite 0x00 32 v) s = .next { s with bpc := BitVec.ofNat 2 (v.toNat % 4) } ∧
    transact (.regWrite 0x04 32 v) s =
      .next { s with width := BitVec.ofNat 16 (v.toNat % 65536), ordValid := false } ∧
    transact (.regWrite 0x08 32 v) s =
      .next { s with height := BitVec.ofNat 16 (v.toNat % 65536), ordValid := false } ∧
    transact (.regWrite 0x0C 32 v) s = .next { s with seed := v } ∧
    transact (.regWrite 0x10 32 v) s = .next { s with payLen := v } ∧
    transact (.regWrite 0x14 32 v) s =
      (match decode v with
        | .ok i => exec i s
        | .error _ => execIllegal s) ∧
    (∀ o ∈ [0x18, 0x1C, 0x20, 0x24, 0x28, 0x2C, 0x30, 0x34, 0x38, 0x3C], transact (.regWrite o 32 v) s = .next s)

/-- 10_state.md R20: the CAPACITY register never wraps: it reads the exact capacity for every geometry. -/
def Obligations.CapacityRegisterNeverWraps : Prop :=
  ∀ (s : State) (d : Depth), Depth.ofField s.bpc = some d →
    s.capacityWord.toNat = s.width.toNat * s.height.toNat * 3 * d.bits / 8 ∧
    s.capacityWord.toNat ≤ 3221127168

/-- 70_reset_and_hazards.md R162: while BUSY = 1 only a STATUS read is answered; every other access, CMD included, is
refused, and so is the command itself. -/
def Obligations.BusyUnitRefusesAllButStatusReads : Prop :=
  ∀ s : State, s.busy = true →
    (∀ act, act ≠ .platformReset → act ≠ .regRead 0x18 32 → ∃ r, transact act s = .refused r) ∧
    (∃ t, transact (.regRead 0x18 32) s = .next t) ∧
    (∀ i, exec i s = .refused .hostAccessWhileBusy) ∧ execIllegal s = .refused .hostAccessWhileBusy

/-- 20_memory.md R44 and U4: a REG access that is not an aligned 32-bit word of the window is refused. Under which NAME it is
refused, and which name comes first when it is wrong in several ways (width before alignment, alignment before range, all
before busy), is the model's choice, not the spec's: log 8. -/
def Obligations.MalformedRegisterAccessesAreRefused : Prop :=
  ∀ (s : State) (offset bits : Nat) (v : Word),
    (bits ≠ 32 → transact (.regRead offset bits) s = .refused .registerAccessNotAWord ∧
      transact (.regWrite offset bits v) s = .refused .registerAccessNotAWord) ∧
    (offset % 4 ≠ 0 → transact (.regRead offset 32) s = .refused .registerOffsetMisaligned ∧
      transact (.regWrite offset 32 v) s = .refused .registerOffsetMisaligned) ∧
    (offset % 4 = 0 → 0x40 ≤ offset → transact (.regRead offset 32) s = .refused .registerOffsetOutsideWindow ∧
      transact (.regWrite offset 32 v) s = .refused .registerOffsetOutsideWindow)

/-- 45_system.md R131: while BUSY = 0 the host reads and writes any byte of IMG and PAY and reads any entry of ORD; a write
to ORD is ignored; none of it touches REG. (An entry without a defined value reads as a free value: U1, log 5.) -/
def Obligations.HostMemoryAccessesTouchOneCell : Prop :=
  ∀ s : State, s.busy = false →
    (∀ a v, a < s.imgDepth → ∃ t, transact (.imgWrite a v) s = .next t ∧ t.imgByte a = v ∧
      (∀ b, b ≠ a → t.imgByte b = s.imgByte b) ∧ (∀ r, t.regValue r = s.regValue r) ∧ s.SameOrder t ∧
      s.SamePayload t ∧ s.SameSurroundings t) ∧
    (∀ a v, a < s.payDepth → ∃ t, transact (.payWrite a v) s = .next t ∧ t.payByte a = v ∧
      (∀ b, b ≠ a → t.payByte b = s.payByte b) ∧ (∀ r, t.regValue r = s.regValue r) ∧ s.SameOrder t ∧
      s.SameImage t ∧ s.SameSurroundings t) ∧
    (∀ a, a < s.imgDepth →
      transact (.imgRead a) s = .next { s with readback := .img a (s.imgByte a) :: s.readback }) ∧
    (∀ a, a < s.payDepth →
      transact (.payRead a) s = .next { s with readback := .pay a (s.payByte a) :: s.readback }) ∧
    (∀ k, k < s.ordDepth → ∃ t, transact (.ordRead k) s = .next t ∧
      (∀ w, s.ord[k]? = some w → t = { s with readback := .ord k w :: s.readback }) ∧
      (∃ w, t.readback = .ord k w :: s.readback) ∧ t.ord = s.ord ∧ (∀ r, t.regValue r = s.regValue r) ∧
      s.SameImage t ∧ s.SamePayload t) ∧
    (∀ k v, k < s.ordDepth → transact (.ordWrite k v) s = .next s)

/-- 20_memory.md R40, 00_scope.md R5: a host access beyond the end of a space faults: there is no such address (log 9). -/
def Obligations.HostAccessesOutsideASpaceFault : Prop :=
  ∀ s : State, s.busy = false → ∀ (a : Nat) (v : Byte) (w : Word),
    (3 * s.maxPixels ≤ a →
      transact (.imgRead a) s = .fault .imgAddressOutside ∧ transact (.imgWrite a v) s = .fault .imgAddressOutside) ∧
    (3 * s.maxPixels / 4 ≤ a →
      transact (.payRead a) s = .fault .payAddressOutside ∧ transact (.payWrite a v) s = .fault .payAddressOutside) ∧
    (s.maxPixels ≤ a →
      transact (.ordRead a) s = .fault .ordEntryOutside ∧ transact (.ordWrite a w) s = .fault .ordEntryOutside)

/-! ## Commands: what each does and what it leaves alone -/

/-- 45_system.md R127: what acceptance changes and what it does not, and what a STATUS read shows while the command runs
(45_system.md R133: exactly 1 + 8 × ORD_VALID). -/
def Obligations.AcceptanceClearsStatusAndResults : Prop :=
  ∀ s : State, s.accept.busy = true ∧ s.accept.done = false ∧ s.accept.err = false ∧ s.accept.errcode = 0 ∧
    s.accept.Results 0 0 0 0 ∧ s.SameButStatus s.accept ∧
    s.accept.regValue .status = BitVec.ofNat 32 (1 + 8 * s.ordValid.toNat)

/-- 45_system.md R129: the word 0 is NOP; it completes in every idle state; DONE = 1, no error, results 0, everything else
unchanged. -/
def Obligations.NopClearsStatusAndResults : Prop :=
  decode 0x00000000 = .ok .nop ∧ ∀ s : State, s.busy = false → ∃ t, exec .nop s = .next t ∧ t.EndedWell ∧ t.Results 0 0 0 0 ∧ s.SameButStatus t

/-- 45_system.md R130, 60_exceptions.md R147: every illegal word is accepted and fails with InvalidCommand; nothing but
STATUS and the result registers changes. -/
def Obligations.IllegalWordEndsWithInvalidCommand : Prop :=
  ∀ (s : State) (w : Word) (e : IllegalWord), s.busy = false → decode w = .error e →
    ∃ t, transact (.regWrite 0x14 32 w) s = .next t ∧ t.EndedWith .invalidCommand ∧ t.Results 0 0 0 0 ∧
      s.SameButStatus t

/-- 42_order.md R93: the word 1 is IDENT; it completes whenever N ≤ MAX_PIXELS; ORD[k] = k for k < N, entries N and above are kept, ORD_VALID
is set, PRNG and everything else is kept; otherwise InvalidConfiguration with ORD, ORD_VALID and PRNG unchanged. -/
def Obligations.IdentFillsTheIdentitySequence : Prop :=
  decode 0x00000001 = .ok .ident ∧ ∀ s : State, s.busy = false →
    (s.pixels ≤ s.maxPixels → ∃ t, exec .ident s = .next t ∧ t.EndedWell ∧ t.Results 0 0 0 0 ∧ t.ordValid = true ∧
      (∀ k, k < s.pixels → t.ord[k]? = some (BitVec.ofNat 32 k)) ∧ (∀ k, s.pixels ≤ k → t.ord[k]? = s.ord[k]?) ∧
      t.prng = s.prng ∧ s.SameOperands t ∧ s.SameImage t ∧ s.SamePayload t ∧ s.SameSurroundings t ∧
      t.ordEpoch = s.ordEpoch) ∧
    (s.maxPixels < s.pixels → ∃ t, exec .ident s = .next t ∧ t.EndedWith .invalidConfiguration ∧ t.Results 0 0 0 0 ∧
      s.SameButStatus t)

/-- 42_order.md R95: the word 2 is ORDER; it completes whenever N ≤ MAX_PIXELS. `st m` is the generator's state after m steps and `tab m` the
table after m swaps, the swap of step m + 1 being that of index i = N − 1 − m with j = bounded(st (m + 1), i + 1) ≤ i:
ORD[0..N) and PRNG are the last of them; entries N and above and everything else are kept. Otherwise InvalidConfiguration
with ORD, ORD_VALID and PRNG unchanged. -/
def Obligations.OrderRunsThePinnedShuffle : Prop :=
  decode 0x00000002 = .ok .order ∧ ∀ s : State, s.busy = false →
    (s.pixels ≤ s.maxPixels → ∃ t, exec .order s = .next t ∧ t.EndedWell ∧ t.Results 0 0 0 0 ∧ t.ordValid = true ∧
      (∃ (st : Nat → Word) (tab : Nat → Nat → Word), st 0 = seedState s.seed ∧ (∀ k, tab 0 k = BitVec.ofNat 32 k) ∧
        (∀ m, m + 1 < s.pixels → st (m + 1) = xs32 (st m) ∧
          bounded (st (m + 1)) (s.pixels - m) ≤ s.pixels - 1 - m ∧
          ∀ k, tab (m + 1) k =
            if k = s.pixels - 1 - m then tab m (bounded (st (m + 1)) (s.pixels - m))
            else if k = bounded (st (m + 1)) (s.pixels - m) then tab m (s.pixels - 1 - m)
            else tab m k) ∧
        (∀ k, k < s.pixels → t.ord[k]? = some (tab (s.pixels - 1) k)) ∧ t.prng = st (s.pixels - 1)) ∧
      (∀ k, s.pixels ≤ k → t.ord[k]? = s.ord[k]?) ∧
      s.SameOperands t ∧ s.SameImage t ∧ s.SamePayload t ∧ s.SameSurroundings t ∧ t.ordEpoch = s.ordEpoch) ∧
    (s.maxPixels < s.pixels → ∃ t, exec .order s = .next t ∧ t.EndedWith .invalidConfiguration ∧ t.Results 0 0 0 0 ∧
      s.SameButStatus t)

/-- 43_scatter.md R102, R104: SCATTER completes whenever BPC is legal, ORD_VALID = 1 over a ready order table and
PAY_LEN ≤ cap: F1 to F4 and the frame. -/
def Obligations.ScatterWritesTheGroupsAlongTheWalk : Prop :=
  ∀ (s : State) (d : Depth), s.busy = false → Depth.ofField s.bpc = some d → s.ordValid = true → s.OrderReady →
    s.payLen.toNat ≤ capacity s.pixels d →
    ∃ t, exec .scatter s = .next t ∧ t.EndedWell ∧
      t.Results s.payLen.toNat (8 * s.payLen.toNat / d.bits) 0 0 ∧
      (∀ g, g < 8 * s.payLen.toNat / d.bits →
        t.imgByte (s.walkAddr g) =
          insertBits (s.imgByte (s.walkAddr g)) (groupValue (s.payload s.payLen.toNat) g d) d ∧
        lowBits (t.imgByte (s.walkAddr g)) d = groupValue (s.payload s.payLen.toNat) g d ∧
        t.imgByte (s.walkAddr g) >>> d.bits = s.imgByte (s.walkAddr g) >>> d.bits) ∧
      (∀ a, (∀ g, g < 8 * s.payLen.toNat / d.bits → s.walkAddr g ≠ a) → t.imgByte a = s.imgByte a) ∧
      s.SameOperands t ∧ s.SameOrder t ∧ t.prng = s.prng ∧ s.SamePayload t ∧ s.SameSurroundings t

/-- 44_gather.md R111: GATHERN completes whenever BPC is legal, ORD_VALID = 1 and PAY_LEN ≤ cap: PAY[j] = gather_byte(j) for
j < PAY_LEN, the rest of PAY and everything else is kept. -/
def Obligations.GathernCollectsTheStatedBytes : Prop :=
  ∀ (s : State) (d : Depth), s.busy = false → Depth.ofField s.bpc = some d → s.ordValid = true →
    s.payLen.toNat ≤ capacity s.pixels d →
    ∃ t, exec .gathern s = .next t ∧ t.EndedWell ∧
      t.Results s.payLen.toNat (s.payLen.toNat * (8 / d.bits)) 0 0 ∧
      (∀ j, j < s.payLen.toNat → t.payByte j = s.gatherByte d j) ∧
      (∀ j, s.payLen.toNat ≤ j → t.payByte j = s.payByte j) ∧
      s.SameOperands t ∧ s.SameOrder t ∧ t.prng = s.prng ∧ s.SameImage t ∧ s.SameSurroundings t

/-- 44_gather.md R112: GATHER completes whenever BPC is legal, ORD_VALID = 1, cap ≥ 41, the first four gathered bytes are
the magic and 41 + size ≤ cap, size the big-endian number of the gathered bytes 4 to 7: PAY[j] = gather_byte(j) for
j < 41 + size, RES_LEN, BEATS, HDR_SIZE, HDR_FLAGS as the rule says, everything else kept. The magic's byte values 53 54 45 47 are 41_header.md R81's, from general knowledge
(93_implementation_defined.md G1, log 12). -/
def Obligations.GatherCollectsTheFramedPayload : Prop :=
  ∀ (s : State) (d : Depth) (size : Nat), s.busy = false → Depth.ofField s.bpc = some d → s.ordValid = true →
    41 ≤ capacity s.pixels d →
    s.gatherByte d 0 = 0x53 → s.gatherByte d 1 = 0x54 → s.gatherByte d 2 = 0x45 → s.gatherByte d 3 = 0x47 →
    size = (s.gatherByte d 4).toNat * 2 ^ 24 + (s.gatherByte d 5).toNat * 2 ^ 16 + (s.gatherByte d 6).toNat * 2 ^ 8 +
      (s.gatherByte d 7).toNat →
    41 + size ≤ capacity s.pixels d →
    ∃ t, exec .gather s = .next t ∧ t.EndedWell ∧
      t.Results (41 + size) ((41 + size) * (8 / d.bits)) size (s.gatherByte d 40) ∧
      (∀ j, j < 41 + size → t.payByte j = s.gatherByte d j) ∧
      (∀ j, 41 + size ≤ j → t.payByte j = s.payByte j) ∧
      s.SameOperands t ∧ s.SameOrder t ∧ t.prng = s.prng ∧ s.SameImage t ∧ s.SameSurroundings t

/-! ## Errors -/

/-- 60_exceptions.md R142, R146, R148: SCATTER, GATHER and GATHERN check CTRL.BPC first and ORD_VALID second, whatever
PAY_LEN is; nothing but STATUS and the result registers (0) changes. -/
def Obligations.DataCommandsCheckDepthThenOrder : Prop :=
  ∀ (s : State) (i : Instr), s.busy = false → i = .scatter ∨ i = .gather ∨ i = .gathern →
    (s.bpc = 0 ∨ s.bpc = 3 → ∃ t, exec i s = .next t ∧ t.EndedWith .invalidConfiguration ∧ t.Results 0 0 0 0 ∧
      s.SameButStatus t) ∧
    (s.bpc = 1 ∨ s.bpc = 2 → s.ordValid = false → ∃ t, exec i s = .next t ∧ t.EndedWith .orderNotReady ∧
      t.Results 0 0 0 0 ∧ s.SameButStatus t)

/-- 60_exceptions.md R143, R145 (b), (c): with a legal depth and a valid order, SCATTER with PAY_LEN > cap raises
CapacityExceeded, GATHERN with PAY_LEN > cap and GATHER with cap < 41 raise InsufficientBits, before anything is written. -/
def Obligations.TooSmallImageIsReportedBeforeAnyWrite : Prop :=
  ∀ (s : State) (d : Depth), s.busy = false → Depth.ofField s.bpc = some d → s.ordValid = true →
    (capacity s.pixels d < s.payLen.toNat → ∃ t, exec .scatter s = .next t ∧ t.EndedWith .capacityExceeded ∧
      t.Results 0 0 0 0 ∧ s.SameButStatus t) ∧
    (capacity s.pixels d < s.payLen.toNat → ∃ t, exec .gathern s = .next t ∧ t.EndedWith .insufficientBits ∧
      t.Results 0 0 0 0 ∧ s.SameButStatus t) ∧
    (capacity s.pixels d < 41 → ∃ t, exec .gather s = .next t ∧ t.EndedWith .insufficientBits ∧
      t.Results 0 0 0 0 ∧ s.SameButStatus t)

/-- 44_gather.md R115, its last two rows (the first three are `DataCommandsCheckDepthThenOrder` and
`TooSmallImageIsReportedBeforeAnyWrite`): a GATHER that fails after its header phase has written the 41 gathered bytes to
PAY and nothing else; HDR_SIZE and HDR_FLAGS are recorded only past the magic check. The magic's byte values: log 12. -/
def Obligations.FailedGatherKeepsTheGatheredHeader : Prop :=
  ∀ (s : State) (d : Depth), s.busy = false → Depth.ofField s.bpc = some d → s.ordValid = true →
    41 ≤ capacity s.pixels d →
    (¬(s.gatherByte d 0 = 0x53 ∧ s.gatherByte d 1 = 0x54 ∧ s.gatherByte d 2 = 0x45 ∧ s.gatherByte d 3 = 0x47) →
      ∃ t, exec .gather s = .next t ∧ t.EndedWith .badMagic ∧ t.Results 41 (41 * (8 / d.bits)) 0 0 ∧
        (∀ j, j < 41 → t.payByte j = s.gatherByte d j) ∧ (∀ j, 41 ≤ j → t.payByte j = s.payByte j) ∧
        s.SameOperands t ∧ s.SameOrder t ∧ t.prng = s.prng ∧ s.SameImage t ∧ s.SameSurroundings t) ∧
    (∀ size, s.gatherByte d 0 = 0x53 → s.gatherByte d 1 = 0x54 → s.gatherByte d 2 = 0x45 → s.gatherByte d 3 = 0x47 →
      size = (s.gatherByte d 4).toNat * 2 ^ 24 + (s.gatherByte d 5).toNat * 2 ^ 16 +
        (s.gatherByte d 6).toNat * 2 ^ 8 + (s.gatherByte d 7).toNat →
      capacity s.pixels d < 41 + size →
      ∃ t, exec .gather s = .next t ∧ t.EndedWith .insufficientBits ∧
        t.Results 41 (41 * (8 / d.bits)) size (s.gatherByte d 40) ∧
        (∀ j, j < 41 → t.payByte j = s.gatherByte d j) ∧ (∀ j, 41 ≤ j → t.payByte j = s.payByte j) ∧
        s.SameOperands t ∧ s.SameOrder t ∧ t.prng = s.prng ∧ s.SameImage t ∧ s.SameSurroundings t)

/-- 60_exceptions.md R149, 43_scatter.md R105: a command that ends in an error has changed no byte of IMG, no operand
register, no entry of ORD, neither ORD_VALID nor PRNG, and no byte of PAY but, for a GATHER, PAY[0..41). -/
def Obligations.FailedCommandsWriteNothing : Prop :=
  ∀ (i : Instr) (s t : State), exec i s = .next t → t.err = true →
    s.SameOperands t ∧ s.SameOrder t ∧ t.prng = s.prng ∧ s.SameImage t ∧ s.SameSurroundings t ∧
    (i ≠ .gather → s.SamePayload t) ∧ (∀ j, 41 ≤ j → t.payByte j = s.payByte j)

/-- 60_exceptions.md R140, R142 to R147, R148: each error code comes only from the commands that raise it and only for its
cause; codes above 5 come from no command (6 from illegal words alone). The magic's byte values: log 12. -/
def Obligations.ErrorsComeOnlyFromTheirCommandsAndCauses : Prop :=
  (∀ (i : Instr) (s t : State), exec i s = .next t →
    (t.errcode = 1 → ((i = .scatter ∨ i = .gather ∨ i = .gathern) ∧ (s.bpc = 0 ∨ s.bpc = 3)) ∨
      ((i = .ident ∨ i = .order) ∧ s.maxPixels < s.pixels)) ∧
    (t.errcode = 2 → i = .scatter ∧ ∃ d, Depth.ofField s.bpc = some d ∧ capacity s.pixels d < s.payLen.toNat) ∧
    (t.errcode = 3 → i = .gather ∧
      ¬(t.payByte 0 = 0x53 ∧ t.payByte 1 = 0x54 ∧ t.payByte 2 = 0x45 ∧ t.payByte 3 = 0x47)) ∧
    (t.errcode = 4 → ∃ d, Depth.ofField s.bpc = some d ∧
      ((i = .gathern ∧ capacity s.pixels d < s.payLen.toNat) ∨ (i = .gather ∧ capacity s.pixels d < 41 + t.hdrSize.toNat))) ∧
    (t.errcode = 5 → (i = .scatter ∨ i = .gather ∨ i = .gathern) ∧ s.ordValid = false ∧ (s.bpc = 1 ∨ s.bpc = 2)) ∧
    t.errcode.toNat ≤ 5 ∧ (t.err = true ↔ t.errcode ≠ 0)) ∧
  ∀ s t : State, execIllegal s = .next t → t.errcode = 6

/-- 30_encoding.md R66: in a reachable state whose geometry exceeds MAX_PIXELS an ORDER fails, and a SCATTER or GATHER after
it fails with OrderNotReady, or with InvalidConfiguration when CTRL.BPC is illegal too. -/
def Obligations.DataCommandAfterFailedOrderFails : Prop :=
  ∀ (s t : State) (i : Instr), s.Inv → s.maxPixels < s.pixels → i = .scatter ∨ i = .gather →
    exec .order s = .next t →
    t.EndedWith .invalidConfiguration ∧
    ∃ u, exec i t = .next u ∧
      ((s.bpc = 1 ∨ s.bpc = 2) → u.EndedWith .orderNotReady) ∧
      ((s.bpc = 0 ∨ s.bpc = 3) → u.EndedWith .invalidConfiguration)

/-! ## Whole-machine rules -/

/-- 45_system.md R128: every command word completes in every idle state; BUSY returns to 0 and DONE is 1; ERR is 1 exactly
when ERRCODE is not 0. -/
def Obligations.EveryCommandCompletes : Prop :=
  ∀ (s : State) (w : Word), s.busy = false →
    ∃ t, transact (.regWrite 0x14 32 w) s = .next t ∧ t.busy = false ∧ t.done = true ∧
      (t.err = true ↔ t.errcode ≠ 0) ∧ t.errcode.toNat ≤ 6 ∧ t.script = s.script ∧ t.readback = s.readback

/-- 10_state.md R10, R27 to R29 and R25; 20_memory.md R40's table: the operand registers are written by no command, IMG by
SCATTER only, PAY by GATHER and GATHERN only, ORD and ORD_VALID by IDENT and ORDER only, PRNG by ORDER only. -/
def Obligations.EachMemoryHasItsOnlyWriters : Prop :=
  ∀ (i : Instr) (s t : State), exec i s = .next t →
    s.SameOperands t ∧ s.SameSurroundings t ∧
    (i ≠ .scatter → s.SameImage t) ∧
    (i ≠ .gather → i ≠ .gathern → s.SamePayload t) ∧
    (i ≠ .ident → i ≠ .order → s.SameOrder t) ∧
    (i ≠ .order → t.prng = s.prng)

/-- 10_state.md R19: ORD_VALID is set only by a successful IDENT or ORDER, and cleared only by a write to WIDTH or HEIGHT or
by reset. -/
def Obligations.OrdValidChangesOnlyAsStated : Prop :=
  ∀ s s' : State, step s = .next s' →
    (s.ordValid = false → s'.ordValid = true →
      ∃ i rest, (i = .ident ∨ i = .order) ∧ s.script = .regWrite 0x14 32 (encode i) :: rest ∧
        s.pixels ≤ s.maxPixels ∧ s'.err = false) ∧
    (s.ordValid = true → s'.ordValid = false →
      (∃ o v rest, (o = 0x04 ∨ o = 0x08) ∧ s.script = .regWrite o 32 v :: rest) ∨
      ∃ rest, s.script = .platformReset :: rest)

/-- 30_encoding.md R61, column "Operand registers read", and R63: a register a command does not read can be changed before
the command or after it, with the same outcome. (SEED by no data command: 70_reset_and_hazards.md R163's stale order.) -/
def Obligations.CommandsReadOnlyTheirOperandRegisters : Prop :=
  ∀ (s : State) (b : BitVec 2) (w h : BitVec 16) (v : Word),
    exec .nop { s with bpc := b, width := w, height := h, seed := v, payLen := v } =
      mapNext (fun t => { t with bpc := b, width := w, height := h, seed := v, payLen := v }) (exec .nop s) ∧
    exec .ident { s with bpc := b, seed := v, payLen := v } =
      mapNext (fun t => { t with bpc := b, seed := v, payLen := v }) (exec .ident s) ∧
    exec .order { s with bpc := b, payLen := v } =
      mapNext (fun t => { t with bpc := b, payLen := v }) (exec .order s) ∧
    exec .scatter { s with seed := v } = mapNext (fun t => { t with seed := v }) (exec .scatter s) ∧
    exec .gather { s with seed := v, payLen := v } =
      mapNext (fun t => { t with seed := v, payLen := v }) (exec .gather s) ∧
    exec .gathern { s with seed := v } = mapNext (fun t => { t with seed := v }) (exec .gathern s)

/-- 60_exceptions.md R152, 10_state.md R30: nothing is sticky: what the previous command left in DONE, ERR, ERRCODE, RES_LEN,
BEATS, HDR_SIZE and HDR_FLAGS has no influence on the next one. -/
def Obligations.PreviousStatusAndResultsAreNeverRead : Prop :=
  ∀ (i : Instr) (s : State) (d e : Bool) (c : BitVec 4) (rl bt hs : Word) (hf : Byte),
    exec i { s with done := d, err := e, errcode := c, resLen := rl, beats := bt, hdrSize := hs, hdrFlags := hf } =
      exec i s

/-- 10_state.md R22: in reachable states BEATS = RES_LEN × gpb after every command that has a legal depth, and both are 0
after a command without one; BEATS ≤ 3 × N, so neither register ever wraps. -/
def Obligations.BeatsCountTheGroupsMoved : Prop :=
  ∀ (i : Instr) (s t : State), s.Inv → exec i s = .next t →
    (∀ d, Depth.ofField s.bpc = some d → t.beats.toNat = t.resLen.toNat * (8 / d.bits)) ∧
    (Depth.ofField s.bpc = none → t.beats = 0 ∧ t.resLen = 0) ∧
    t.beats.toNat ≤ 3 * s.pixels

/-! ## The pixel order -/

/-- 42_order.md R90: the generator in the rule's own arithmetic on natural numbers; it is a bijection of the 32-bit values
that fixes 0 and nothing else maps to 0. -/
def Obligations.GeneratorIsABijectionFixingZero : Prop :=
  (∀ s : Word, ∃ a b : Nat, a = s.toNat ^^^ (s.toNat * 2 ^ 13 % 2 ^ 32) ∧ b = a ^^^ (a / 2 ^ 17) ∧
    (xs32 s).toNat = b ^^^ (b * 2 ^ 5 % 2 ^ 32)) ∧
  Function.Bijective xs32 ∧ xs32 0 = 0 ∧ ∀ s, s ≠ 0 → xs32 s ≠ 0

/-- 42_order.md R91: the first state is never 0; seeds 0 and 0x9E3779B9 start alike, all other pairs of distinct seeds from
distinct states. -/
def Obligations.SeedStateIsNeverZero : Prop :=
  seedState 0 = 0x9E3779B9 ∧ (∀ v, v ≠ 0 → seedState v = v) ∧ (∀ v, seedState v ≠ 0) ∧
  ∀ v w, v ≠ w → seedState v = seedState w → (v = 0 ∧ w = 0x9E3779B9) ∨ (v = 0x9E3779B9 ∧ w = 0)

/-- 42_order.md R92: the bounded draw is the high 32 bits of the product and lies in 0..m − 1. -/
def Obligations.BoundedDrawStaysBelowItsBound : Prop :=
  ∀ (s : Word) (m : Nat), 1 ≤ m → m ≤ 2 ^ 32 → bounded s m = (s.toNat * m) >>> 32 ∧ bounded s m < m

/-- 42_order.md R96 P1: after a successful IDENT or ORDER, ORD[0..N) is a permutation of [0, N). -/
def Obligations.SelectedOrderIsAPermutation : Prop :=
  ∀ (i : Instr) (s t : State), i = .ident ∨ i = .order → exec i s = .next t → t.err = false →
    List.Perm ((t.ord.take s.pixels).map BitVec.toNat) (List.range s.pixels) ∧
    (∀ p, p < s.pixels → ∃ k, k < s.pixels ∧ t.ord[k]? = some (BitVec.ofNat 32 p))

/-- 42_order.md R96 P2, P3, P4: ORD[0..N) and PRNG after ORDER depend on N and the seed alone (on seed_state of it), on
whatever instance of the hardware. -/
def Obligations.OrderDependsOnPixelsAndSeedAlone : Prop :=
  ∀ s t s' t' : State, s.pixels = t.pixels → seedState s.seed = seedState t.seed →
    exec .order s = .next s' → exec .order t = .next t' → s'.err = false → t'.err = false →
    s'.prng = t'.prng ∧ ∀ k, k < s.pixels → s'.ord[k]? = t'.ord[k]?

/-- 42_order.md R96 P5: PRNG after ORDER is xs32 applied max(N − 1, 0) times to seed_state(SEED), and is never 0. -/
def Obligations.OrderLeavesTheGeneratorState : Prop :=
  ∀ s t : State, exec .order s = .next t → t.err = false →
    t.prng = xs32^[s.pixels - 1] (seedState s.seed) ∧ t.prng ≠ 0

/-! ## The walk -/

/-- 43_scatter.md R101: addr(g) = 3 × ORD[g div 3] + (g mod 3), and over a ready order table no channel is visited twice. -/
def Obligations.WalkVisitsNoChannelTwice : Prop :=
  ∀ s : State, (∀ g w, s.ord[g / 3]? = some w → s.walkAddr g = 3 * w.toNat + g % 3) ∧
    (s.OrderReady → ∀ g h, g < 3 * s.pixels → h < 3 * s.pixels → s.walkAddr g = s.walkAddr h → g = h)

/-- 20_memory.md R47: every address the unit generates is inside its space: the entry of ORD is a defined one, the byte of
IMG is below 3 × N ≤ IMG_DEPTH, and L ≤ cap gives G ≤ 3 × N groups and L ≤ PAY_DEPTH bytes. -/
def Obligations.EveryUnitAddressIsInsideItsSpace : Prop :=
  ∀ s : State, s.OrderReady →
    (∀ g, g < 3 * s.pixels → g / 3 < s.ordDepth ∧ g / 3 < s.ord.length ∧ s.walkAddr g < 3 * s.pixels ∧
      s.walkAddr g < s.imgDepth) ∧
    (∀ (d : Depth) (len : Nat), len ≤ capacity s.pixels d →
      8 * len / d.bits ≤ 3 * s.pixels ∧ len * (8 / d.bits) = 8 * len / d.bits ∧ len ≤ s.payDepth)

/-- 43_scatter.md R103, 20_memory.md R52: the beats of one SCATTER may be performed in any order: every byte of
the image is the same. -/
def Obligations.ScatterBeatsCommute : Prop :=
  ∀ (s : State) (d : Depth) (B : List Byte) (gs : List Nat), s.OrderReady → B.length ≤ capacity s.pixels d →
    List.Perm gs (List.range (8 * B.length / d.bits)) →
    ∀ a, (scatterBeats s B d gs).readAs .img s.memEpoch a =
      (scatterBeats s B d (List.range (8 * B.length / d.bits))).readAs .img s.memEpoch a

/-- 44_gather.md R110: the first channel read gives the most significant bits of the byte. -/
def Obligations.GatherByteTakesFirstChannelFirst : Prop :=
  ∀ (s : State) (j : Nat),
    (∀ k, k < 8 → (s.gatherByte .one j).getLsbD (7 - k) = (s.imgByte (s.walkAddr (j * 8 + k))).getLsbD 0) ∧
    (∀ k, k < 4 → (s.gatherByte .two j).getLsbD (7 - 2 * k) = (s.imgByte (s.walkAddr (j * 4 + k))).getLsbD 1 ∧
      (s.gatherByte .two j).getLsbD (6 - 2 * k) = (s.imgByte (s.walkAddr (j * 4 + k))).getLsbD 0)

/-- 44_gather.md R113: the channels beyond those of the bytes gathered have no influence on a successful GATHER or GATHERN.
`s` and `u` share registers and order and agree on the first RES_LEN × gpb channels of the walk, nothing else. -/
def Obligations.GatherReadsOnlyTheChannelsOfItsBytes : Prop :=
  ∀ (i : Instr) (s u s' : State) (d : Depth), i = .gather ∨ i = .gathern → u.busy = false →
    s.SameOperands u → s.SameOrder u → Depth.ofField s.bpc = some d →
    exec i s = .next s' → s'.err = false →
    (∀ g, g < s'.resLen.toNat * (8 / d.bits) → u.imgByte (s.walkAddr g) = s.imgByte (s.walkAddr g)) →
    ∃ u', exec i u = .next u' ∧ u'.EndedWell ∧ u'.resLen = s'.resLen ∧ u'.beats = s'.beats ∧
      u'.hdrSize = s'.hdrSize ∧ u'.hdrFlags = s'.hdrFlags ∧
      ∀ j, j < s'.resLen.toNat → u'.payByte j = s'.payByte j

/-! ## Round trips -/

/-- 44_gather.md R114 T1, T4: what a SCATTER of L bytes hid, a GATHERN with the same depth, geometry and order over
the same image finds again, whatever PAY holds by then; with a larger PAY_LEN the bytes beyond L are made of the cover's own
low bits. -/
def Obligations.GathernReturnsWhatScatterHid : Prop :=
  ∀ (s t u : State) (d : Depth), s.OrderReady → Depth.ofField s.bpc = some d →
    exec .scatter s = .next t → t.err = false →
    u.busy = false → u.bpc = t.bpc → u.width = t.width → u.height = t.height → u.ordValid = t.ordValid → u.ord = t.ord →
    t.SameImage u →
    u.payLen.toNat ≤ capacity s.pixels d →
    ∃ v, exec .gathern u = .next v ∧ v.EndedWell ∧
      (∀ j, j < u.payLen.toNat → j < s.payLen.toNat → v.payByte j = s.payByte j) ∧
      (∀ j, j < u.payLen.toNat → s.payLen.toNat ≤ j → v.payByte j = s.gatherByte d j)

/-- 44_gather.md R114 T2: a framed payload (magic, size = length of the body, PAY_LEN = 41 + size) hidden by a
SCATTER is found again by a GATHER, with RES_LEN, HDR_SIZE and HDR_FLAGS. The magic's byte values: log 12. -/
def Obligations.GatherReturnsTheFramedPayloadScatterHid : Prop :=
  ∀ (s t u : State) (d : Depth), s.OrderReady → Depth.ofField s.bpc = some d →
    magicOk s.payByte = true → s.payLen.toNat = 41 + (headerSize s.payByte).toNat →
    exec .scatter s = .next t → t.err = false →
    u.busy = false → u.bpc = t.bpc → u.width = t.width → u.height = t.height → u.ordValid = t.ordValid → u.ord = t.ord →
    t.SameImage u →
    ∃ v, exec .gather u = .next v ∧ v.EndedWell ∧ v.resLen = s.payLen ∧ v.hdrSize = headerSize s.payByte ∧
      v.hdrFlags = s.payByte 40 ∧ ∀ j, j < s.payLen.toNat → v.payByte j = s.payByte j

/-- 44_gather.md R114 T3: the same across two instances. Instance one orders (`s` to `s1`), its host loads payload
and settings (`s2`), it scatters (`s3`); instance two, of whatever size, orders with the same N and seed (`u` to `u1`), its
host loads IMG[0..3N) and the same settings (`u2`): its GATHERN returns the payload, and its GATHER a framed one (the magic's
byte values: log 12). -/
def Obligations.AnotherInstanceGathersWhatWasScattered : Prop :=
  ∀ s s1 s2 s3 u u1 u2 : State, s.pixels = u.pixels → s.seed = u.seed →
    exec .order s = .next s1 → s1.err = false → exec .order u = .next u1 → u1.err = false →
    s2.width = s1.width → s2.height = s1.height → s2.ordValid = s1.ordValid → s2.ord = s1.ord →
    exec .scatter s2 = .next s3 → s3.err = false →
    u2.busy = false → u2.width = u1.width → u2.height = u1.height → u2.ordValid = u1.ordValid → u2.ord = u1.ord →
    u2.bpc = s2.bpc → u2.payLen = s2.payLen →
    (∀ a, a < 3 * s.pixels → u2.imgByte a = s3.imgByte a) →
    (∃ v, exec .gathern u2 = .next v ∧ v.EndedWell ∧ ∀ j, j < s2.payLen.toNat → v.payByte j = s2.payByte j) ∧
    (magicOk s2.payByte = true → s2.payLen.toNat = 41 + (headerSize s2.payByte).toNat →
      ∃ v, exec .gather u2 = .next v ∧ v.EndedWell ∧ v.resLen = s2.payLen ∧ v.hdrSize = headerSize s2.payByte ∧
        v.hdrFlags = s2.payByte 40 ∧ ∀ j, j < s2.payLen.toNat → v.payByte j = s2.payByte j)

/-! ## The data path and the capacity -/

/-- 40_bit_byte.md R72: `bytes` and `bits` are exact inverses. -/
def Obligations.BitsAndBytesAreInverses : Prop :=
  (∀ B, bytesOf (bitsOf B) = some B) ∧
  (∀ b, b.length % 8 = 0 → ∃ B, bytesOf b = some B ∧ bitsOf B = b)

/-- 40_bit_byte.md R70, R71: the length of `bits(B)`, its i-th bit, and the domain of `bytes`. -/
def Obligations.BitStreamIsMostSignificantFirst : Prop :=
  ∀ B : List Byte, (bitsOf B).length = 8 * B.length ∧
    (∀ j (b : Byte), B[j]? = some b → ∀ k, k < 8 → (bitsOf B)[8 * j + k]? = some (b.getLsbD (7 - k))) ∧
    (∀ b : List Bool, (bytesOf b).isSome = true ↔ b.length % 8 = 0)

/-- 40_bit_byte.md R74: the byte view of the groups, and that a byte is rebuilt from its gpb groups. -/
def Obligations.PackRebuildsTheByteOfItsGroups : Prop :=
  (∀ (B : List Byte) (g : Nat), groupValue B g .one = BitVec.ofNat 8 ((B.getD (g / 8) 0).getLsbD (7 - g % 8)).toNat) ∧
  (∀ (B : List Byte) (g : Nat), groupValue B g .two = ((B.getD (g / 4) 0) >>> (6 - 2 * (g % 4))) &&& 3) ∧
  (∀ (B : List Byte) (d : Depth) (j : Nat), j < B.length →
    pack ((List.range (8 / d.bits)).map fun k => groupValue B (j * (8 / d.bits) + k) d) d = B.getD j 0)

/-- 40_bit_byte.md R75: insert in the clear-then-OR form and in the exclusive-or form. -/
def Obligations.InsertHasAnExclusiveOrForm : Prop :=
  ∀ (old v : Byte) (d : Depth), v.toNat < 2 ^ d.bits →
    insertBits old v d = (old &&& (255 - BitVec.ofNat 8 (2 ^ d.bits - 1))) ||| v ∧
    insertBits old v d = old ^^^ ((old ^^^ v) &&& BitVec.ofNat 8 (2 ^ d.bits - 1))

/-- 40_bit_byte.md R77: the laws L1 to L6 of insert and low. -/
def Obligations.InsertAndLowLaws : Prop :=
  ∀ (old v v' : Byte) (d : Depth), v.toNat < 2 ^ d.bits → v'.toNat < 2 ^ d.bits →
    lowBits (insertBits old v d) d = v ∧
    insertBits old (lowBits old d) d = old ∧
    insertBits (insertBits old v d) v' d = insertBits old v' d ∧
    insertBits old v d >>> d.bits = old >>> d.bits ∧
    (insertBits old v d).toNat ≤ old.toNat + (2 ^ d.bits - 1) ∧
    old.toNat ≤ (insertBits old v d).toNat + (2 ^ d.bits - 1) ∧
    (insertBits old v d).toNat ≤ 255

/-- 43_scatter.md R100: the capacity and what always holds between the two depths. -/
def Obligations.CapacityFormulaAndDoubling : Prop :=
  ∀ n : Nat, capacity n .one = n * 3 * 1 / 8 ∧ capacity n .two = n * 3 * 2 / 8 ∧
    2 * capacity n .one ≤ capacity n .two ∧ capacity n .two ≤ 2 * capacity n .one + 1 ∧
    (capacity n .two = 2 * capacity n .one ↔ 3 * n % 8 ≤ 3)
end

