-- ==== Sys2Proof/Laws/State.lean ====
section
/-! SUPPORT. One lemma per field per named update of State, and the reads that an update leaves alone. -/

namespace Sys2Proof.Machine

/-! ## `accept` -/

@[simp] theorem State.accept_bpc (s : State) : s.accept.bpc = s.bpc := rfl
@[simp] theorem State.accept_width (s : State) : s.accept.width = s.width := rfl
@[simp] theorem State.accept_height (s : State) : s.accept.height = s.height := rfl
@[simp] theorem State.accept_seed (s : State) : s.accept.seed = s.seed := rfl
@[simp] theorem State.accept_payLen (s : State) : s.accept.payLen = s.payLen := rfl
@[simp] theorem State.accept_busy (s : State) : s.accept.busy = true := rfl
@[simp] theorem State.accept_done (s : State) : s.accept.done = false := rfl
@[simp] theorem State.accept_err (s : State) : s.accept.err = false := rfl
@[simp] theorem State.accept_ordValid (s : State) : s.accept.ordValid = s.ordValid := rfl
@[simp] theorem State.accept_errcode (s : State) : s.accept.errcode = 0 := rfl
@[simp] theorem State.accept_resLen (s : State) : s.accept.resLen = 0 := rfl
@[simp] theorem State.accept_beats (s : State) : s.accept.beats = 0 := rfl
@[simp] theorem State.accept_hdrSize (s : State) : s.accept.hdrSize = 0 := rfl
@[simp] theorem State.accept_hdrFlags (s : State) : s.accept.hdrFlags = 0 := rfl
@[simp] theorem State.accept_prng (s : State) : s.accept.prng = s.prng := rfl
@[simp] theorem State.accept_ord (s : State) : s.accept.ord = s.ord := rfl
@[simp] theorem State.accept_img (s : State) : s.accept.img = s.img := rfl
@[simp] theorem State.accept_pay (s : State) : s.accept.pay = s.pay := rfl
@[simp] theorem State.accept_script (s : State) : s.accept.script = s.script := rfl
@[simp] theorem State.accept_readback (s : State) : s.accept.readback = s.readback := rfl
@[simp] theorem State.accept_pixelLimit (s : State) : s.accept.pixelLimit = s.pixelLimit := rfl
@[simp] theorem State.accept_memEpoch (s : State) : s.accept.memEpoch = s.memEpoch := rfl
@[simp] theorem State.accept_ordEpoch (s : State) : s.accept.ordEpoch = s.ordEpoch := rfl
@[simp] theorem State.accept_pixels (s : State) : s.accept.pixels = s.pixels := rfl
@[simp] theorem State.accept_maxPixels (s : State) : s.accept.maxPixels = s.maxPixels := rfl
@[simp] theorem State.accept_imgDepth (s : State) : s.accept.imgDepth = s.imgDepth := rfl
@[simp] theorem State.accept_payDepth (s : State) : s.accept.payDepth = s.payDepth := rfl
@[simp] theorem State.accept_ordDepth (s : State) : s.accept.ordDepth = s.ordDepth := rfl
@[simp] theorem State.accept_imgByte (s : State) (a : Nat) : s.accept.imgByte a = s.imgByte a := rfl
@[simp] theorem State.accept_payByte (s : State) (a : Nat) : s.accept.payByte a = s.payByte a := rfl
@[simp] theorem State.accept_ordEntry (s : State) (k : Nat) : s.accept.ordEntry k = s.ordEntry k := rfl
@[simp] theorem State.accept_walkAddr (s : State) (g : Nat) : s.accept.walkAddr g = s.walkAddr g := rfl
@[simp] theorem State.accept_gatherByte (s : State) (d' : Depth) (j : Nat) :
    s.accept.gatherByte d' j = s.gatherByte d' j := rfl

/-! ## `complete` -/

@[simp] theorem State.complete_bpc (s : State) : s.complete.bpc = s.bpc := rfl
@[simp] theorem State.complete_width (s : State) : s.complete.width = s.width := rfl
@[simp] theorem State.complete_height (s : State) : s.complete.height = s.height := rfl
@[simp] theorem State.complete_seed (s : State) : s.complete.seed = s.seed := rfl
@[simp] theorem State.complete_payLen (s : State) : s.complete.payLen = s.payLen := rfl
@[simp] theorem State.complete_busy (s : State) : s.complete.busy = false := rfl
@[simp] theorem State.complete_done (s : State) : s.complete.done = true := rfl
@[simp] theorem State.complete_err (s : State) : s.complete.err = s.err := rfl
@[simp] theorem State.complete_ordValid (s : State) : s.complete.ordValid = s.ordValid := rfl
@[simp] theorem State.complete_errcode (s : State) : s.complete.errcode = s.errcode := rfl
@[simp] theorem State.complete_resLen (s : State) : s.complete.resLen = s.resLen := rfl
@[simp] theorem State.complete_beats (s : State) : s.complete.beats = s.beats := rfl
@[simp] theorem State.complete_hdrSize (s : State) : s.complete.hdrSize = s.hdrSize := rfl
@[simp] theorem State.complete_hdrFlags (s : State) : s.complete.hdrFlags = s.hdrFlags := rfl
@[simp] theorem State.complete_prng (s : State) : s.complete.prng = s.prng := rfl
@[simp] theorem State.complete_ord (s : State) : s.complete.ord = s.ord := rfl
@[simp] theorem State.complete_img (s : State) : s.complete.img = s.img := rfl
@[simp] theorem State.complete_pay (s : State) : s.complete.pay = s.pay := rfl
@[simp] theorem State.complete_script (s : State) : s.complete.script = s.script := rfl
@[simp] theorem State.complete_readback (s : State) : s.complete.readback = s.readback := rfl
@[simp] theorem State.complete_pixelLimit (s : State) : s.complete.pixelLimit = s.pixelLimit := rfl
@[simp] theorem State.complete_memEpoch (s : State) : s.complete.memEpoch = s.memEpoch := rfl
@[simp] theorem State.complete_ordEpoch (s : State) : s.complete.ordEpoch = s.ordEpoch := rfl
@[simp] theorem State.complete_pixels (s : State) : s.complete.pixels = s.pixels := rfl
@[simp] theorem State.complete_maxPixels (s : State) : s.complete.maxPixels = s.maxPixels := rfl
@[simp] theorem State.complete_imgDepth (s : State) : s.complete.imgDepth = s.imgDepth := rfl
@[simp] theorem State.complete_payDepth (s : State) : s.complete.payDepth = s.payDepth := rfl
@[simp] theorem State.complete_ordDepth (s : State) : s.complete.ordDepth = s.ordDepth := rfl
@[simp] theorem State.complete_imgByte (s : State) (a : Nat) : s.complete.imgByte a = s.imgByte a := rfl
@[simp] theorem State.complete_payByte (s : State) (a : Nat) : s.complete.payByte a = s.payByte a := rfl
@[simp] theorem State.complete_ordEntry (s : State) (k : Nat) : s.complete.ordEntry k = s.ordEntry k := rfl
@[simp] theorem State.complete_walkAddr (s : State) (g : Nat) : s.complete.walkAddr g = s.walkAddr g := rfl
@[simp] theorem State.complete_gatherByte (s : State) (d' : Depth) (j : Nat) :
    s.complete.gatherByte d' j = s.gatherByte d' j := rfl

/-! ## `raiseError` -/

@[simp] theorem State.raiseError_bpc (s : State) (e : ErrorKind) : (s.raiseError e).bpc = s.bpc := rfl
@[simp] theorem State.raiseError_width (s : State) (e : ErrorKind) : (s.raiseError e).width = s.width := rfl
@[simp] theorem State.raiseError_height (s : State) (e : ErrorKind) : (s.raiseError e).height = s.height := rfl
@[simp] theorem State.raiseError_seed (s : State) (e : ErrorKind) : (s.raiseError e).seed = s.seed := rfl
@[simp] theorem State.raiseError_payLen (s : State) (e : ErrorKind) : (s.raiseError e).payLen = s.payLen := rfl
@[simp] theorem State.raiseError_busy (s : State) (e : ErrorKind) : (s.raiseError e).busy = s.busy := rfl
@[simp] theorem State.raiseError_done (s : State) (e : ErrorKind) : (s.raiseError e).done = s.done := rfl
@[simp] theorem State.raiseError_err (s : State) (e : ErrorKind) : (s.raiseError e).err = true := rfl
@[simp] theorem State.raiseError_ordValid (s : State) (e : ErrorKind) : (s.raiseError e).ordValid = s.ordValid := rfl
@[simp] theorem State.raiseError_errcode (s : State) (e : ErrorKind) : (s.raiseError e).errcode = e.code := rfl
@[simp] theorem State.raiseError_resLen (s : State) (e : ErrorKind) : (s.raiseError e).resLen = s.resLen := rfl
@[simp] theorem State.raiseError_beats (s : State) (e : ErrorKind) : (s.raiseError e).beats = s.beats := rfl
@[simp] theorem State.raiseError_hdrSize (s : State) (e : ErrorKind) : (s.raiseError e).hdrSize = s.hdrSize := rfl
@[simp] theorem State.raiseError_hdrFlags (s : State) (e : ErrorKind) : (s.raiseError e).hdrFlags = s.hdrFlags := rfl
@[simp] theorem State.raiseError_prng (s : State) (e : ErrorKind) : (s.raiseError e).prng = s.prng := rfl
@[simp] theorem State.raiseError_ord (s : State) (e : ErrorKind) : (s.raiseError e).ord = s.ord := rfl
@[simp] theorem State.raiseError_img (s : State) (e : ErrorKind) : (s.raiseError e).img = s.img := rfl
@[simp] theorem State.raiseError_pay (s : State) (e : ErrorKind) : (s.raiseError e).pay = s.pay := rfl
@[simp] theorem State.raiseError_script (s : State) (e : ErrorKind) : (s.raiseError e).script = s.script := rfl
@[simp] theorem State.raiseError_readback (s : State) (e : ErrorKind) : (s.raiseError e).readback = s.readback := rfl
@[simp] theorem State.raiseError_pixelLimit (s : State) (e : ErrorKind) : (s.raiseError e).pixelLimit = s.pixelLimit := rfl
@[simp] theorem State.raiseError_memEpoch (s : State) (e : ErrorKind) : (s.raiseError e).memEpoch = s.memEpoch := rfl
@[simp] theorem State.raiseError_ordEpoch (s : State) (e : ErrorKind) : (s.raiseError e).ordEpoch = s.ordEpoch := rfl
@[simp] theorem State.raiseError_pixels (s : State) (e : ErrorKind) : (s.raiseError e).pixels = s.pixels := rfl
@[simp] theorem State.raiseError_maxPixels (s : State) (e : ErrorKind) : (s.raiseError e).maxPixels = s.maxPixels := rfl
@[simp] theorem State.raiseError_imgDepth (s : State) (e : ErrorKind) : (s.raiseError e).imgDepth = s.imgDepth := rfl
@[simp] theorem State.raiseError_payDepth (s : State) (e : ErrorKind) : (s.raiseError e).payDepth = s.payDepth := rfl
@[simp] theorem State.raiseError_ordDepth (s : State) (e : ErrorKind) : (s.raiseError e).ordDepth = s.ordDepth := rfl
@[simp] theorem State.raiseError_imgByte (s : State) (e : ErrorKind) (a : Nat) : (s.raiseError e).imgByte a = s.imgByte a := rfl
@[simp] theorem State.raiseError_payByte (s : State) (e : ErrorKind) (a : Nat) : (s.raiseError e).payByte a = s.payByte a := rfl
@[simp] theorem State.raiseError_ordEntry (s : State) (e : ErrorKind) (k : Nat) : (s.raiseError e).ordEntry k = s.ordEntry k := rfl
@[simp] theorem State.raiseError_walkAddr (s : State) (e : ErrorKind) (g : Nat) : (s.raiseError e).walkAddr g = s.walkAddr g := rfl
@[simp] theorem State.raiseError_gatherByte (s : State) (e : ErrorKind) (d' : Depth) (j : Nat) :
    (s.raiseError e).gatherByte d' j = s.gatherByte d' j := rfl

/-! ## `answer` -/

@[simp] theorem State.answer_bpc (s : State) (r : Readback) : (s.answer r).bpc = s.bpc := rfl
@[simp] theorem State.answer_width (s : State) (r : Readback) : (s.answer r).width = s.width := rfl
@[simp] theorem State.answer_height (s : State) (r : Readback) : (s.answer r).height = s.height := rfl
@[simp] theorem State.answer_seed (s : State) (r : Readback) : (s.answer r).seed = s.seed := rfl
@[simp] theorem State.answer_payLen (s : State) (r : Readback) : (s.answer r).payLen = s.payLen := rfl
@[simp] theorem State.answer_busy (s : State) (r : Readback) : (s.answer r).busy = s.busy := rfl
@[simp] theorem State.answer_done (s : State) (r : Readback) : (s.answer r).done = s.done := rfl
@[simp] theorem State.answer_err (s : State) (r : Readback) : (s.answer r).err = s.err := rfl
@[simp] theorem State.answer_ordValid (s : State) (r : Readback) : (s.answer r).ordValid = s.ordValid := rfl
@[simp] theorem State.answer_errcode (s : State) (r : Readback) : (s.answer r).errcode = s.errcode := rfl
@[simp] theorem State.answer_resLen (s : State) (r : Readback) : (s.answer r).resLen = s.resLen := rfl
@[simp] theorem State.answer_beats (s : State) (r : Readback) : (s.answer r).beats = s.beats := rfl
@[simp] theorem State.answer_hdrSize (s : State) (r : Readback) : (s.answer r).hdrSize = s.hdrSize := rfl
@[simp] theorem State.answer_hdrFlags (s : State) (r : Readback) : (s.answer r).hdrFlags = s.hdrFlags := rfl
@[simp] theorem State.answer_prng (s : State) (r : Readback) : (s.answer r).prng = s.prng := rfl
@[simp] theorem State.answer_ord (s : State) (r : Readback) : (s.answer r).ord = s.ord := rfl
@[simp] theorem State.answer_img (s : State) (r : Readback) : (s.answer r).img = s.img := rfl
@[simp] theorem State.answer_pay (s : State) (r : Readback) : (s.answer r).pay = s.pay := rfl
@[simp] theorem State.answer_script (s : State) (r : Readback) : (s.answer r).script = s.script := rfl
@[simp] theorem State.answer_readback (s : State) (r : Readback) : (s.answer r).readback = r :: s.readback := rfl
@[simp] theorem State.answer_pixelLimit (s : State) (r : Readback) : (s.answer r).pixelLimit = s.pixelLimit := rfl
@[simp] theorem State.answer_memEpoch (s : State) (r : Readback) : (s.answer r).memEpoch = s.memEpoch := rfl
@[simp] theorem State.answer_ordEpoch (s : State) (r : Readback) : (s.answer r).ordEpoch = s.ordEpoch := rfl

/-! ## `selectOrder` -/

@[simp] theorem State.selectOrder_bpc (s : State) (l : List Word) : (s.selectOrder l).bpc = s.bpc := rfl
@[simp] theorem State.selectOrder_width (s : State) (l : List Word) : (s.selectOrder l).width = s.width := rfl
@[simp] theorem State.selectOrder_height (s : State) (l : List Word) : (s.selectOrder l).height = s.height := rfl
@[simp] theorem State.selectOrder_seed (s : State) (l : List Word) : (s.selectOrder l).seed = s.seed := rfl
@[simp] theorem State.selectOrder_payLen (s : State) (l : List Word) : (s.selectOrder l).payLen = s.payLen := rfl
@[simp] theorem State.selectOrder_busy (s : State) (l : List Word) : (s.selectOrder l).busy = s.busy := rfl
@[simp] theorem State.selectOrder_done (s : State) (l : List Word) : (s.selectOrder l).done = s.done := rfl
@[simp] theorem State.selectOrder_err (s : State) (l : List Word) : (s.selectOrder l).err = s.err := rfl
@[simp] theorem State.selectOrder_ordValid (s : State) (l : List Word) : (s.selectOrder l).ordValid = true := rfl
@[simp] theorem State.selectOrder_errcode (s : State) (l : List Word) : (s.selectOrder l).errcode = s.errcode := rfl
@[simp] theorem State.selectOrder_resLen (s : State) (l : List Word) : (s.selectOrder l).resLen = s.resLen := rfl
@[simp] theorem State.selectOrder_beats (s : State) (l : List Word) : (s.selectOrder l).beats = s.beats := rfl
@[simp] theorem State.selectOrder_hdrSize (s : State) (l : List Word) : (s.selectOrder l).hdrSize = s.hdrSize := rfl
@[simp] theorem State.selectOrder_hdrFlags (s : State) (l : List Word) : (s.selectOrder l).hdrFlags = s.hdrFlags := rfl
@[simp] theorem State.selectOrder_prng (s : State) (l : List Word) : (s.selectOrder l).prng = s.prng := rfl
@[simp] theorem State.selectOrder_ord (s : State) (l : List Word) : (s.selectOrder l).ord = l ++ s.ord.drop l.length := rfl
@[simp] theorem State.selectOrder_img (s : State) (l : List Word) : (s.selectOrder l).img = s.img := rfl
@[simp] theorem State.selectOrder_pay (s : State) (l : List Word) : (s.selectOrder l).pay = s.pay := rfl
@[simp] theorem State.selectOrder_script (s : State) (l : List Word) : (s.selectOrder l).script = s.script := rfl
@[simp] theorem State.selectOrder_readback (s : State) (l : List Word) : (s.selectOrder l).readback = s.readback := rfl
@[simp] theorem State.selectOrder_pixelLimit (s : State) (l : List Word) : (s.selectOrder l).pixelLimit = s.pixelLimit := rfl
@[simp] theorem State.selectOrder_memEpoch (s : State) (l : List Word) : (s.selectOrder l).memEpoch = s.memEpoch := rfl
@[simp] theorem State.selectOrder_ordEpoch (s : State) (l : List Word) : (s.selectOrder l).ordEpoch = s.ordEpoch := rfl
@[simp] theorem State.selectOrder_pixels (s : State) (l : List Word) : (s.selectOrder l).pixels = s.pixels := rfl
@[simp] theorem State.selectOrder_maxPixels (s : State) (l : List Word) : (s.selectOrder l).maxPixels = s.maxPixels := rfl
@[simp] theorem State.selectOrder_imgDepth (s : State) (l : List Word) : (s.selectOrder l).imgDepth = s.imgDepth := rfl
@[simp] theorem State.selectOrder_payDepth (s : State) (l : List Word) : (s.selectOrder l).payDepth = s.payDepth := rfl
@[simp] theorem State.selectOrder_ordDepth (s : State) (l : List Word) : (s.selectOrder l).ordDepth = s.ordDepth := rfl
@[simp] theorem State.selectOrder_imgByte (s : State) (l : List Word) (a : Nat) : (s.selectOrder l).imgByte a = s.imgByte a := rfl
@[simp] theorem State.selectOrder_payByte (s : State) (l : List Word) (a : Nat) : (s.selectOrder l).payByte a = s.payByte a := rfl

/-! ## `recordPrng` -/

@[simp] theorem State.recordPrng_bpc (s : State) (v : Word) : (s.recordPrng v).bpc = s.bpc := rfl
@[simp] theorem State.recordPrng_width (s : State) (v : Word) : (s.recordPrng v).width = s.width := rfl
@[simp] theorem State.recordPrng_height (s : State) (v : Word) : (s.recordPrng v).height = s.height := rfl
@[simp] theorem State.recordPrng_seed (s : State) (v : Word) : (s.recordPrng v).seed = s.seed := rfl
@[simp] theorem State.recordPrng_payLen (s : State) (v : Word) : (s.recordPrng v).payLen = s.payLen := rfl
@[simp] theorem State.recordPrng_busy (s : State) (v : Word) : (s.recordPrng v).busy = s.busy := rfl
@[simp] theorem State.recordPrng_done (s : State) (v : Word) : (s.recordPrng v).done = s.done := rfl
@[simp] theorem State.recordPrng_err (s : State) (v : Word) : (s.recordPrng v).err = s.err := rfl
@[simp] theorem State.recordPrng_ordValid (s : State) (v : Word) : (s.recordPrng v).ordValid = s.ordValid := rfl
@[simp] theorem State.recordPrng_errcode (s : State) (v : Word) : (s.recordPrng v).errcode = s.errcode := rfl
@[simp] theorem State.recordPrng_resLen (s : State) (v : Word) : (s.recordPrng v).resLen = s.resLen := rfl
@[simp] theorem State.recordPrng_beats (s : State) (v : Word) : (s.recordPrng v).beats = s.beats := rfl
@[simp] theorem State.recordPrng_hdrSize (s : State) (v : Word) : (s.recordPrng v).hdrSize = s.hdrSize := rfl
@[simp] theorem State.recordPrng_hdrFlags (s : State) (v : Word) : (s.recordPrng v).hdrFlags = s.hdrFlags := rfl
@[simp] theorem State.recordPrng_prng (s : State) (v : Word) : (s.recordPrng v).prng = v := rfl
@[simp] theorem State.recordPrng_ord (s : State) (v : Word) : (s.recordPrng v).ord = s.ord := rfl
@[simp] theorem State.recordPrng_img (s : State) (v : Word) : (s.recordPrng v).img = s.img := rfl
@[simp] theorem State.recordPrng_pay (s : State) (v : Word) : (s.recordPrng v).pay = s.pay := rfl
@[simp] theorem State.recordPrng_script (s : State) (v : Word) : (s.recordPrng v).script = s.script := rfl
@[simp] theorem State.recordPrng_readback (s : State) (v : Word) : (s.recordPrng v).readback = s.readback := rfl
@[simp] theorem State.recordPrng_pixelLimit (s : State) (v : Word) : (s.recordPrng v).pixelLimit = s.pixelLimit := rfl
@[simp] theorem State.recordPrng_memEpoch (s : State) (v : Word) : (s.recordPrng v).memEpoch = s.memEpoch := rfl
@[simp] theorem State.recordPrng_ordEpoch (s : State) (v : Word) : (s.recordPrng v).ordEpoch = s.ordEpoch := rfl
@[simp] theorem State.recordPrng_pixels (s : State) (v : Word) : (s.recordPrng v).pixels = s.pixels := rfl
@[simp] theorem State.recordPrng_maxPixels (s : State) (v : Word) : (s.recordPrng v).maxPixels = s.maxPixels := rfl
@[simp] theorem State.recordPrng_imgDepth (s : State) (v : Word) : (s.recordPrng v).imgDepth = s.imgDepth := rfl
@[simp] theorem State.recordPrng_payDepth (s : State) (v : Word) : (s.recordPrng v).payDepth = s.payDepth := rfl
@[simp] theorem State.recordPrng_ordDepth (s : State) (v : Word) : (s.recordPrng v).ordDepth = s.ordDepth := rfl
@[simp] theorem State.recordPrng_imgByte (s : State) (v : Word) (a : Nat) : (s.recordPrng v).imgByte a = s.imgByte a := rfl
@[simp] theorem State.recordPrng_payByte (s : State) (v : Word) (a : Nat) : (s.recordPrng v).payByte a = s.payByte a := rfl
@[simp] theorem State.recordPrng_ordEntry (s : State) (v : Word) (k : Nat) : (s.recordPrng v).ordEntry k = s.ordEntry k := rfl
@[simp] theorem State.recordPrng_walkAddr (s : State) (v : Word) (g : Nat) : (s.recordPrng v).walkAddr g = s.walkAddr g := rfl
@[simp] theorem State.recordPrng_gatherByte (s : State) (v : Word) (d' : Depth) (j : Nat) :
    (s.recordPrng v).gatherByte d' j = s.gatherByte d' j := rfl

/-! ## `recordHeader` -/

@[simp] theorem State.recordHeader_bpc (s : State) : s.recordHeader.bpc = s.bpc := rfl
@[simp] theorem State.recordHeader_width (s : State) : s.recordHeader.width = s.width := rfl
@[simp] theorem State.recordHeader_height (s : State) : s.recordHeader.height = s.height := rfl
@[simp] theorem State.recordHeader_seed (s : State) : s.recordHeader.seed = s.seed := rfl
@[simp] theorem State.recordHeader_payLen (s : State) : s.recordHeader.payLen = s.payLen := rfl
@[simp] theorem State.recordHeader_busy (s : State) : s.recordHeader.busy = s.busy := rfl
@[simp] theorem State.recordHeader_done (s : State) : s.recordHeader.done = s.done := rfl
@[simp] theorem State.recordHeader_err (s : State) : s.recordHeader.err = s.err := rfl
@[simp] theorem State.recordHeader_ordValid (s : State) : s.recordHeader.ordValid = s.ordValid := rfl
@[simp] theorem State.recordHeader_errcode (s : State) : s.recordHeader.errcode = s.errcode := rfl
@[simp] theorem State.recordHeader_resLen (s : State) : s.recordHeader.resLen = s.resLen := rfl
@[simp] theorem State.recordHeader_beats (s : State) : s.recordHeader.beats = s.beats := rfl
@[simp] theorem State.recordHeader_hdrSize (s : State) : s.recordHeader.hdrSize = headerSize s.payByte := rfl
@[simp] theorem State.recordHeader_hdrFlags (s : State) : s.recordHeader.hdrFlags = s.payByte 40 := rfl
@[simp] theorem State.recordHeader_prng (s : State) : s.recordHeader.prng = s.prng := rfl
@[simp] theorem State.recordHeader_ord (s : State) : s.recordHeader.ord = s.ord := rfl
@[simp] theorem State.recordHeader_img (s : State) : s.recordHeader.img = s.img := rfl
@[simp] theorem State.recordHeader_pay (s : State) : s.recordHeader.pay = s.pay := rfl
@[simp] theorem State.recordHeader_script (s : State) : s.recordHeader.script = s.script := rfl
@[simp] theorem State.recordHeader_readback (s : State) : s.recordHeader.readback = s.readback := rfl
@[simp] theorem State.recordHeader_pixelLimit (s : State) : s.recordHeader.pixelLimit = s.pixelLimit := rfl
@[simp] theorem State.recordHeader_memEpoch (s : State) : s.recordHeader.memEpoch = s.memEpoch := rfl
@[simp] theorem State.recordHeader_ordEpoch (s : State) : s.recordHeader.ordEpoch = s.ordEpoch := rfl
@[simp] theorem State.recordHeader_pixels (s : State) : s.recordHeader.pixels = s.pixels := rfl
@[simp] theorem State.recordHeader_maxPixels (s : State) : s.recordHeader.maxPixels = s.maxPixels := rfl
@[simp] theorem State.recordHeader_imgDepth (s : State) : s.recordHeader.imgDepth = s.imgDepth := rfl
@[simp] theorem State.recordHeader_payDepth (s : State) : s.recordHeader.payDepth = s.payDepth := rfl
@[simp] theorem State.recordHeader_ordDepth (s : State) : s.recordHeader.ordDepth = s.ordDepth := rfl
@[simp] theorem State.recordHeader_imgByte (s : State) (a : Nat) : s.recordHeader.imgByte a = s.imgByte a := rfl
@[simp] theorem State.recordHeader_payByte (s : State) (a : Nat) : s.recordHeader.payByte a = s.payByte a := rfl
@[simp] theorem State.recordHeader_ordEntry (s : State) (k : Nat) : s.recordHeader.ordEntry k = s.ordEntry k := rfl
@[simp] theorem State.recordHeader_walkAddr (s : State) (g : Nat) : s.recordHeader.walkAddr g = s.walkAddr g := rfl
@[simp] theorem State.recordHeader_gatherByte (s : State) (d' : Depth) (j : Nat) :
    s.recordHeader.gatherByte d' j = s.gatherByte d' j := rfl

/-! ## `scatterFrom` -/

@[simp] theorem State.scatterFrom_bpc (s : State) (d : Depth) (n : Nat) : (s.scatterFrom d n).bpc = s.bpc := rfl
@[simp] theorem State.scatterFrom_width (s : State) (d : Depth) (n : Nat) : (s.scatterFrom d n).width = s.width := rfl
@[simp] theorem State.scatterFrom_height (s : State) (d : Depth) (n : Nat) : (s.scatterFrom d n).height = s.height := rfl
@[simp] theorem State.scatterFrom_seed (s : State) (d : Depth) (n : Nat) : (s.scatterFrom d n).seed = s.seed := rfl
@[simp] theorem State.scatterFrom_payLen (s : State) (d : Depth) (n : Nat) : (s.scatterFrom d n).payLen = s.payLen := rfl
@[simp] theorem State.scatterFrom_busy (s : State) (d : Depth) (n : Nat) : (s.scatterFrom d n).busy = s.busy := rfl
@[simp] theorem State.scatterFrom_done (s : State) (d : Depth) (n : Nat) : (s.scatterFrom d n).done = s.done := rfl
@[simp] theorem State.scatterFrom_err (s : State) (d : Depth) (n : Nat) : (s.scatterFrom d n).err = s.err := rfl
@[simp] theorem State.scatterFrom_ordValid (s : State) (d : Depth) (n : Nat) : (s.scatterFrom d n).ordValid = s.ordValid := rfl
@[simp] theorem State.scatterFrom_errcode (s : State) (d : Depth) (n : Nat) : (s.scatterFrom d n).errcode = s.errcode := rfl
@[simp] theorem State.scatterFrom_resLen (s : State) (d : Depth) (n : Nat) : (s.scatterFrom d n).resLen = BitVec.ofNat 32 n := rfl
@[simp] theorem State.scatterFrom_beats (s : State) (d : Depth) (n : Nat) : (s.scatterFrom d n).beats = BitVec.ofNat 32 (groupCount n d) := rfl
@[simp] theorem State.scatterFrom_hdrSize (s : State) (d : Depth) (n : Nat) : (s.scatterFrom d n).hdrSize = s.hdrSize := rfl
@[simp] theorem State.scatterFrom_hdrFlags (s : State) (d : Depth) (n : Nat) : (s.scatterFrom d n).hdrFlags = s.hdrFlags := rfl
@[simp] theorem State.scatterFrom_prng (s : State) (d : Depth) (n : Nat) : (s.scatterFrom d n).prng = s.prng := rfl
@[simp] theorem State.scatterFrom_ord (s : State) (d : Depth) (n : Nat) : (s.scatterFrom d n).ord = s.ord := rfl
@[simp] theorem State.scatterFrom_img (s : State) (d : Depth) (n : Nat) : (s.scatterFrom d n).img = scatterBeats s (s.payload n) d (List.range (groupCount n d)) := rfl
@[simp] theorem State.scatterFrom_pay (s : State) (d : Depth) (n : Nat) : (s.scatterFrom d n).pay = s.pay := rfl
@[simp] theorem State.scatterFrom_script (s : State) (d : Depth) (n : Nat) : (s.scatterFrom d n).script = s.script := rfl
@[simp] theorem State.scatterFrom_readback (s : State) (d : Depth) (n : Nat) : (s.scatterFrom d n).readback = s.readback := rfl
@[simp] theorem State.scatterFrom_pixelLimit (s : State) (d : Depth) (n : Nat) : (s.scatterFrom d n).pixelLimit = s.pixelLimit := rfl
@[simp] theorem State.scatterFrom_memEpoch (s : State) (d : Depth) (n : Nat) : (s.scatterFrom d n).memEpoch = s.memEpoch := rfl
@[simp] theorem State.scatterFrom_ordEpoch (s : State) (d : Depth) (n : Nat) : (s.scatterFrom d n).ordEpoch = s.ordEpoch := rfl
@[simp] theorem State.scatterFrom_pixels (s : State) (d : Depth) (n : Nat) : (s.scatterFrom d n).pixels = s.pixels := rfl
@[simp] theorem State.scatterFrom_maxPixels (s : State) (d : Depth) (n : Nat) : (s.scatterFrom d n).maxPixels = s.maxPixels := rfl
@[simp] theorem State.scatterFrom_imgDepth (s : State) (d : Depth) (n : Nat) : (s.scatterFrom d n).imgDepth = s.imgDepth := rfl
@[simp] theorem State.scatterFrom_payDepth (s : State) (d : Depth) (n : Nat) : (s.scatterFrom d n).payDepth = s.payDepth := rfl
@[simp] theorem State.scatterFrom_ordDepth (s : State) (d : Depth) (n : Nat) : (s.scatterFrom d n).ordDepth = s.ordDepth := rfl
@[simp] theorem State.scatterFrom_payByte (s : State) (d : Depth) (n : Nat) (a : Nat) : (s.scatterFrom d n).payByte a = s.payByte a := rfl
@[simp] theorem State.scatterFrom_ordEntry (s : State) (d : Depth) (n : Nat) (k : Nat) : (s.scatterFrom d n).ordEntry k = s.ordEntry k := rfl
@[simp] theorem State.scatterFrom_walkAddr (s : State) (d : Depth) (n : Nat) (g : Nat) : (s.scatterFrom d n).walkAddr g = s.walkAddr g := rfl

/-! ## `gatherTo` -/

@[simp] theorem State.gatherTo_bpc (s : State) (d : Depth) (m n : Nat) : (s.gatherTo d m n).bpc = s.bpc := rfl
@[simp] theorem State.gatherTo_width (s : State) (d : Depth) (m n : Nat) : (s.gatherTo d m n).width = s.width := rfl
@[simp] theorem State.gatherTo_height (s : State) (d : Depth) (m n : Nat) : (s.gatherTo d m n).height = s.height := rfl
@[simp] theorem State.gatherTo_seed (s : State) (d : Depth) (m n : Nat) : (s.gatherTo d m n).seed = s.seed := rfl
@[simp] theorem State.gatherTo_payLen (s : State) (d : Depth) (m n : Nat) : (s.gatherTo d m n).payLen = s.payLen := rfl
@[simp] theorem State.gatherTo_busy (s : State) (d : Depth) (m n : Nat) : (s.gatherTo d m n).busy = s.busy := rfl
@[simp] theorem State.gatherTo_done (s : State) (d : Depth) (m n : Nat) : (s.gatherTo d m n).done = s.done := rfl
@[simp] theorem State.gatherTo_err (s : State) (d : Depth) (m n : Nat) : (s.gatherTo d m n).err = s.err := rfl
@[simp] theorem State.gatherTo_ordValid (s : State) (d : Depth) (m n : Nat) : (s.gatherTo d m n).ordValid = s.ordValid := rfl
@[simp] theorem State.gatherTo_errcode (s : State) (d : Depth) (m n : Nat) : (s.gatherTo d m n).errcode = s.errcode := rfl
@[simp] theorem State.gatherTo_resLen (s : State) (d : Depth) (m n : Nat) : (s.gatherTo d m n).resLen = BitVec.ofNat 32 (m + n) := rfl
@[simp] theorem State.gatherTo_beats (s : State) (d : Depth) (m n : Nat) : (s.gatherTo d m n).beats = BitVec.ofNat 32 ((m + n) * d.groupsPerByte) := rfl
@[simp] theorem State.gatherTo_hdrSize (s : State) (d : Depth) (m n : Nat) : (s.gatherTo d m n).hdrSize = s.hdrSize := rfl
@[simp] theorem State.gatherTo_hdrFlags (s : State) (d : Depth) (m n : Nat) : (s.gatherTo d m n).hdrFlags = s.hdrFlags := rfl
@[simp] theorem State.gatherTo_prng (s : State) (d : Depth) (m n : Nat) : (s.gatherTo d m n).prng = s.prng := rfl
@[simp] theorem State.gatherTo_ord (s : State) (d : Depth) (m n : Nat) : (s.gatherTo d m n).ord = s.ord := rfl
@[simp] theorem State.gatherTo_img (s : State) (d : Depth) (m n : Nat) : (s.gatherTo d m n).img = s.img := rfl
@[simp] theorem State.gatherTo_pay (s : State) (d : Depth) (m n : Nat) : (s.gatherTo d m n).pay = s.pay.storeBytes m ((List.range n).map fun k => s.gatherByte d (m + k)) := rfl
@[simp] theorem State.gatherTo_script (s : State) (d : Depth) (m n : Nat) : (s.gatherTo d m n).script = s.script := rfl
@[simp] theorem State.gatherTo_readback (s : State) (d : Depth) (m n : Nat) : (s.gatherTo d m n).readback = s.readback := rfl
@[simp] theorem State.gatherTo_pixelLimit (s : State) (d : Depth) (m n : Nat) : (s.gatherTo d m n).pixelLimit = s.pixelLimit := rfl
@[simp] theorem State.gatherTo_memEpoch (s : State) (d : Depth) (m n : Nat) : (s.gatherTo d m n).memEpoch = s.memEpoch := rfl
@[simp] theorem State.gatherTo_ordEpoch (s : State) (d : Depth) (m n : Nat) : (s.gatherTo d m n).ordEpoch = s.ordEpoch := rfl
@[simp] theorem State.gatherTo_pixels (s : State) (d : Depth) (m n : Nat) : (s.gatherTo d m n).pixels = s.pixels := rfl
@[simp] theorem State.gatherTo_maxPixels (s : State) (d : Depth) (m n : Nat) : (s.gatherTo d m n).maxPixels = s.maxPixels := rfl
@[simp] theorem State.gatherTo_imgDepth (s : State) (d : Depth) (m n : Nat) : (s.gatherTo d m n).imgDepth = s.imgDepth := rfl
@[simp] theorem State.gatherTo_payDepth (s : State) (d : Depth) (m n : Nat) : (s.gatherTo d m n).payDepth = s.payDepth := rfl
@[simp] theorem State.gatherTo_ordDepth (s : State) (d : Depth) (m n : Nat) : (s.gatherTo d m n).ordDepth = s.ordDepth := rfl
@[simp] theorem State.gatherTo_imgByte (s : State) (d : Depth) (m n : Nat) (a : Nat) : (s.gatherTo d m n).imgByte a = s.imgByte a := rfl
@[simp] theorem State.gatherTo_ordEntry (s : State) (d : Depth) (m n : Nat) (k : Nat) : (s.gatherTo d m n).ordEntry k = s.ordEntry k := rfl
@[simp] theorem State.gatherTo_walkAddr (s : State) (d : Depth) (m n : Nat) (g : Nat) : (s.gatherTo d m n).walkAddr g = s.walkAddr g := rfl
@[simp] theorem State.gatherTo_gatherByte (s : State) (d : Depth) (m n : Nat) (d' : Depth) (j : Nat) :
    (s.gatherTo d m n).gatherByte d' j = s.gatherByte d' j := rfl

end Sys2Proof.Machine
end

