-- ==== Sys2Proof/Laws/Frames.lean ====
section
/-! SUPPORT. Which parts of the state each named update leaves alone, in the words of Safety.lean, and that those words are
reflexive and transitive. -/

namespace Sys2Proof.Machine

theorem State.SameOperands.refl (s : State) : s.SameOperands s := ⟨rfl, rfl, rfl, rfl, rfl⟩

theorem State.SameOrder.refl (s : State) : s.SameOrder s := ⟨rfl, rfl, rfl⟩

theorem State.SameImage.refl (s : State) : s.SameImage s := fun _ => rfl

theorem State.SamePayload.refl (s : State) : s.SamePayload s := fun _ => rfl

theorem State.SameSurroundings.refl (s : State) : s.SameSurroundings s := ⟨rfl, rfl, rfl, rfl⟩

theorem State.SameOperands.trans {s t u : State} (h : s.SameOperands t) (k : t.SameOperands u) : s.SameOperands u :=
  ⟨k.1.trans h.1, k.2.1.trans h.2.1, k.2.2.1.trans h.2.2.1, k.2.2.2.1.trans h.2.2.2.1, k.2.2.2.2.trans h.2.2.2.2⟩

theorem State.SameOrder.trans {s t u : State} (h : s.SameOrder t) (k : t.SameOrder u) : s.SameOrder u :=
  ⟨k.1.trans h.1, k.2.1.trans h.2.1, k.2.2.trans h.2.2⟩

theorem State.SameImage.trans {s t u : State} (h : s.SameImage t) (k : t.SameImage u) : s.SameImage u :=
  fun a => (k a).trans (h a)

theorem State.SamePayload.trans {s t u : State} (h : s.SamePayload t) (k : t.SamePayload u) : s.SamePayload u :=
  fun a => (k a).trans (h a)

theorem State.SameSurroundings.trans {s t u : State} (h : s.SameSurroundings t) (k : t.SameSurroundings u) :
    s.SameSurroundings u :=
  ⟨k.1.trans h.1, k.2.1.trans h.2.1, k.2.2.1.trans h.2.2.1, k.2.2.2.trans h.2.2.2⟩

/-- The same operands give the same number of pixels. -/
theorem State.SameOperands.pixels {s t : State} (h : s.SameOperands t) : t.pixels = s.pixels := by
  simp [State.pixels, h.2.1, h.2.2.1]

/-- The same order table gives the same walk. -/
theorem State.SameOrder.walkAddr {s t : State} (h : s.SameOrder t) (g : Nat) : t.walkAddr g = s.walkAddr g := by
  simp [State.walkAddr, State.ordEntry, h.2.1, h.2.2]

theorem State.accept_sameOperands (s : State) : s.SameOperands s.accept := ⟨rfl, rfl, rfl, rfl, rfl⟩
theorem State.accept_sameOrder (s : State) : s.SameOrder s.accept := ⟨rfl, rfl, rfl⟩
theorem State.accept_sameImage (s : State) : s.SameImage s.accept := fun _ => rfl
theorem State.accept_samePayload (s : State) : s.SamePayload s.accept := fun _ => rfl
theorem State.accept_sameSurroundings (s : State) : s.SameSurroundings s.accept := ⟨rfl, rfl, rfl, rfl⟩

theorem State.complete_sameOperands (s : State) : s.SameOperands s.complete := ⟨rfl, rfl, rfl, rfl, rfl⟩
theorem State.complete_sameOrder (s : State) : s.SameOrder s.complete := ⟨rfl, rfl, rfl⟩
theorem State.complete_sameImage (s : State) : s.SameImage s.complete := fun _ => rfl
theorem State.complete_samePayload (s : State) : s.SamePayload s.complete := fun _ => rfl
theorem State.complete_sameSurroundings (s : State) : s.SameSurroundings s.complete := ⟨rfl, rfl, rfl, rfl⟩

theorem State.raiseError_sameOperands (s : State) (e : ErrorKind) : s.SameOperands (s.raiseError e) := ⟨rfl, rfl, rfl, rfl, rfl⟩
theorem State.raiseError_sameOrder (s : State) (e : ErrorKind) : s.SameOrder (s.raiseError e) := ⟨rfl, rfl, rfl⟩
theorem State.raiseError_sameImage (s : State) (e : ErrorKind) : s.SameImage (s.raiseError e) := fun _ => rfl
theorem State.raiseError_samePayload (s : State) (e : ErrorKind) : s.SamePayload (s.raiseError e) := fun _ => rfl
theorem State.raiseError_sameSurroundings (s : State) (e : ErrorKind) : s.SameSurroundings (s.raiseError e) := ⟨rfl, rfl, rfl, rfl⟩

theorem State.selectOrder_sameOperands (s : State) (l : List Word) : s.SameOperands (s.selectOrder l) := ⟨rfl, rfl, rfl, rfl, rfl⟩
theorem State.selectOrder_sameImage (s : State) (l : List Word) : s.SameImage (s.selectOrder l) := fun _ => rfl
theorem State.selectOrder_samePayload (s : State) (l : List Word) : s.SamePayload (s.selectOrder l) := fun _ => rfl
theorem State.selectOrder_sameSurroundings (s : State) (l : List Word) : s.SameSurroundings (s.selectOrder l) := ⟨rfl, rfl, rfl, rfl⟩

theorem State.recordPrng_sameOperands (s : State) (v : Word) : s.SameOperands (s.recordPrng v) := ⟨rfl, rfl, rfl, rfl, rfl⟩
theorem State.recordPrng_sameOrder (s : State) (v : Word) : s.SameOrder (s.recordPrng v) := ⟨rfl, rfl, rfl⟩
theorem State.recordPrng_sameImage (s : State) (v : Word) : s.SameImage (s.recordPrng v) := fun _ => rfl
theorem State.recordPrng_samePayload (s : State) (v : Word) : s.SamePayload (s.recordPrng v) := fun _ => rfl
theorem State.recordPrng_sameSurroundings (s : State) (v : Word) : s.SameSurroundings (s.recordPrng v) := ⟨rfl, rfl, rfl, rfl⟩

theorem State.recordHeader_sameOperands (s : State) : s.SameOperands s.recordHeader := ⟨rfl, rfl, rfl, rfl, rfl⟩
theorem State.recordHeader_sameOrder (s : State) : s.SameOrder s.recordHeader := ⟨rfl, rfl, rfl⟩
theorem State.recordHeader_sameImage (s : State) : s.SameImage s.recordHeader := fun _ => rfl
theorem State.recordHeader_samePayload (s : State) : s.SamePayload s.recordHeader := fun _ => rfl
theorem State.recordHeader_sameSurroundings (s : State) : s.SameSurroundings s.recordHeader := ⟨rfl, rfl, rfl, rfl⟩

theorem State.scatterFrom_sameOperands (s : State) (d : Depth) (n : Nat) : s.SameOperands (s.scatterFrom d n) := ⟨rfl, rfl, rfl, rfl, rfl⟩
theorem State.scatterFrom_sameOrder (s : State) (d : Depth) (n : Nat) : s.SameOrder (s.scatterFrom d n) := ⟨rfl, rfl, rfl⟩
theorem State.scatterFrom_samePayload (s : State) (d : Depth) (n : Nat) : s.SamePayload (s.scatterFrom d n) := fun _ => rfl
theorem State.scatterFrom_sameSurroundings (s : State) (d : Depth) (n : Nat) : s.SameSurroundings (s.scatterFrom d n) := ⟨rfl, rfl, rfl, rfl⟩

theorem State.gatherTo_sameOperands (s : State) (d : Depth) (m n : Nat) : s.SameOperands (s.gatherTo d m n) := ⟨rfl, rfl, rfl, rfl, rfl⟩
theorem State.gatherTo_sameOrder (s : State) (d : Depth) (m n : Nat) : s.SameOrder (s.gatherTo d m n) := ⟨rfl, rfl, rfl⟩
theorem State.gatherTo_sameImage (s : State) (d : Depth) (m n : Nat) : s.SameImage (s.gatherTo d m n) := fun _ => rfl
theorem State.gatherTo_sameSurroundings (s : State) (d : Depth) (m n : Nat) : s.SameSurroundings (s.gatherTo d m n) := ⟨rfl, rfl, rfl, rfl⟩

end Sys2Proof.Machine
end

