-- ==== Sys2Proof/Laws/Header.lean ====
section
/-! SUPPORT. The header's fields in the rule's own arithmetic (41_header.md R81, R82). -/

namespace Sys2Proof.Machine

/-- A byte put above `n` bits. -/
theorem append_toNat {m n : Nat} (x : BitVec m) (y : BitVec n) : (x ++ y).toNat = x.toNat * 2 ^ n + y.toNat := by
  rw [BitVec.toNat_append, Nat.shiftLeft_eq, Nat.mul_comm, Nat.two_pow_add_eq_or_of_lt y.isLt]

/-- 41_header.md R82's sum. -/
theorem headerSize_toNat (p : Nat → Byte) : (headerSize p).toNat =
    (p 4).toNat * 2 ^ 24 + (p 5).toNat * 2 ^ 16 + (p 6).toNat * 2 ^ 8 + (p 7).toNat := by
  unfold headerSize
  have h : (p 4 ++ p 5 ++ p 6 ++ p 7 : BitVec 32).toNat = (((p 4).toNat * 2 ^ 8 + (p 5).toNat) * 2 ^ 8 +
      (p 6).toNat) * 2 ^ 8 + (p 7).toNat := by
    rw [append_toNat, append_toNat, append_toNat]
  rw [h]
  omega

/-- 41_header.md R81's four comparisons. -/
theorem magicOk_iff (p : Nat → Byte) :
    magicOk p = true ↔ p 0 = 0x53 ∧ p 1 = 0x54 ∧ p 2 = 0x45 ∧ p 3 = 0x47 := by
  simp [magicOk, and_assoc]

/-- The header's fields depend on the 41 header bytes alone. -/
theorem header_congr {p q : Nat → Byte} (h : ∀ j, j < 41 → p j = q j) :
    magicOk p = magicOk q ∧ headerSize p = headerSize q ∧ headerFlags p = headerFlags q := by
  simp [magicOk, headerSize, headerFlags, h 0 (by omega), h 1 (by omega), h 2 (by omega), h 3 (by omega),
    h 4 (by omega), h 5 (by omega), h 6 (by omega), h 7 (by omega), h 40 (by omega)]

end Sys2Proof.Machine
end

