-- ==== Sys2Proof/Laws/Memory.lean ====
section
/-! SUPPORT. The laws of the byte memories: read after write, and that every operation keeps the canonical form. -/

namespace Sys2Proof.Machine

/-! ## Read after write -/

theorem Memory.lookup_store_same (m : Memory) (a : Nat) (v : Byte) : (m.store a v).lookup a = some v := by
  induction m with
  | nil => simp [store, lookup]
  | cons c rest ih =>
    obtain ⟨k, b⟩ := c
    by_cases h1 : a < k
    · simp [store, lookup, h1]
    · by_cases h2 : a = k
      · simp [store, lookup, h2]
      · simp [store, lookup, h1, h2, Ne.symm h2, ih]

theorem Memory.lookup_store_other (m : Memory) {a b : Nat} (v : Byte) (h : b ≠ a) :
    (m.store a v).lookup b = m.lookup b := by
  induction m with
  | nil => simp [store, lookup, Ne.symm h]
  | cons c rest ih =>
    obtain ⟨k, w⟩ := c
    by_cases h1 : a < k
    · simp [store, lookup, h1, Ne.symm h]
    · by_cases h2 : a = k
      · subst h2; simp [store, lookup, Ne.symm h]
      · simp [store, lookup, h1, h2, ih]

theorem Memory.lookup_store (m : Memory) (a b : Nat) (v : Byte) :
    (m.store a v).lookup b = if b = a then some v else m.lookup b := by
  by_cases h : b = a
  · subst h; simp [lookup_store_same]
  · simp [h, lookup_store_other m v h]

theorem Memory.readAs_store (m : Memory) (sp : Config.ByteSpace) (e a b : Nat) (v : Byte) :
    (m.store a v).readAs sp e b = if b = a then v else m.readAs sp e b := by
  unfold readAs
  rw [lookup_store]
  split <;> simp

/-- Bytes stored from `a` up: byte `b` reads as stored inside the range, as before outside it. -/
theorem Memory.readAs_storeBytes (vs : List Byte) (m : Memory) (sp : Config.ByteSpace) (e a b : Nat) :
    (m.storeBytes a vs).readAs sp e b =
      if a ≤ b ∧ b < a + vs.length then vs.getD (b - a) 0 else m.readAs sp e b := by
  induction vs generalizing m a with
  | nil => simp only [storeBytes, List.length_nil]; rw [if_neg (by omega)]
  | cons v vs ih =>
    simp only [storeBytes, ih, readAs_store, List.length_cons]
    by_cases h : b = a
    · subst h; simp
    · by_cases h1 : a + 1 ≤ b ∧ b < a + 1 + vs.length
      · have h2 : a ≤ b ∧ b < a + (vs.length + 1) := by omega
        have h3 : b - a = (b - (a + 1)) + 1 := by omega
        simp [h1, h2, h3]
      · have h2 : ¬(a ≤ b ∧ b < a + (vs.length + 1)) := by omega
        rw [if_neg h1, if_neg h, if_neg h2]

/-! ## The canonical form -/

theorem Memory.risingFrom_mono {lo lo' : Nat} (m : Memory) (h : lo' ≤ lo) (hm : m.risingFrom lo = true) :
    m.risingFrom lo' = true := by
  cases m with
  | nil => rfl
  | cons c rest =>
    obtain ⟨k, b⟩ := c
    simp only [risingFrom, Bool.and_eq_true, decide_eq_true_eq] at hm ⊢
    exact ⟨by omega, hm.2⟩

theorem Memory.risingFrom_store {lo : Nat} (m : Memory) (a : Nat) (v : Byte) (h : lo ≤ a)
    (hm : m.risingFrom lo = true) : (m.store a v).risingFrom lo = true := by
  induction m generalizing lo with
  | nil => simp [store, risingFrom, h]
  | cons c rest ih =>
    obtain ⟨k, b⟩ := c
    simp only [risingFrom, Bool.and_eq_true, decide_eq_true_eq] at hm
    by_cases h1 : a < k
    · simp only [store, h1, if_true, risingFrom, Bool.and_eq_true, decide_eq_true_eq]
      exact ⟨h, by omega, hm.2⟩
    · by_cases h2 : a = k
      · subst h2
        simp only [store, h1, if_false, if_true, risingFrom, Bool.and_eq_true, decide_eq_true_eq]
        exact hm
      · simp only [store, h1, h2, if_false, risingFrom, Bool.and_eq_true, decide_eq_true_eq]
        exact ⟨hm.1, ih (by omega) hm.2⟩

/-- A store keeps the canonical form. -/
theorem Memory.store_wf {m : Memory} (a : Nat) (v : Byte) (hm : m.wf = true) : (m.store a v).wf = true :=
  risingFrom_store m a v (Nat.zero_le a) hm

/-- Storing a run of bytes keeps the canonical form. -/
theorem Memory.storeBytes_wf (vs : List Byte) {m : Memory} (a : Nat) (hm : m.wf = true) :
    (m.storeBytes a vs).wf = true := by
  induction vs generalizing m a with
  | nil => exact hm
  | cons v vs ih => exact ih (a + 1) (store_wf a v hm)

/-- The empty memory is canonical. -/
theorem Memory.nil_wf : Memory.wf [] = true := rfl

/-! ## Addresses stay below the depth -/

theorem Memory.store_below {m : Memory} {depth a : Nat} (v : Byte) (hm : m.Below depth) (ha : a < depth) :
    (m.store a v).Below depth := by
  induction m with
  | nil => intro c hc; simp [store] at hc; subst hc; exact ha
  | cons c rest ih =>
    obtain ⟨k, b⟩ := c
    have hk : k < depth := hm (k, b) (by simp)
    have hr : Below rest depth := fun c hc => hm c (by simp [hc])
    intro c hc
    unfold store at hc
    split at hc
    · simp only [List.mem_cons] at hc
      rcases hc with rfl | rfl | hc
      · exact ha
      · exact hk
      · exact hr c hc
    · split at hc
      · simp only [List.mem_cons] at hc
        rcases hc with rfl | hc
        · exact ha
        · exact hr c hc
      · simp only [List.mem_cons] at hc
        rcases hc with rfl | hc
        · exact hk
        · exact ih hr c hc

theorem Memory.storeBytes_below (vs : List Byte) {m : Memory} {depth a : Nat} (hm : m.Below depth)
    (ha : a + vs.length ≤ depth) : (m.storeBytes a vs).Below depth := by
  induction vs generalizing m a with
  | nil => exact hm
  | cons v vs ih =>
    simp only [List.length_cons] at ha
    exact ih (store_below v hm (by omega)) (by omega)

end Sys2Proof.Machine
end

