-- ==== Sys2Proof/Laws/Ops.lean ====
section
/-! SUPPORT. What the shared operations can do, said once: a command's outcome, the checks of the data commands, a host
access, the PAY writes of a gather. -/

namespace Sys2Proof.Machine

/-! ## Acceptance to completion -/

theorem runCommand_idle {body : State → Ended} {s : State} (h : s.busy = false) :
    runCommand body s = .next (body s.accept).finish := by simp [runCommand, h]

theorem runCommand_busy {body : State → Ended} {s : State} (h : s.busy = true) :
    runCommand body s = .refused .hostAccessWhileBusy := by simp [runCommand, h]

/-- A command answers a next state exactly from an idle state, and then it is the end of its body run on the accepted
state. -/
theorem runCommand_next {body : State → Ended} {s t : State} (h : runCommand body s = .next t) :
    s.busy = false ∧ t = (body s.accept).finish := by
  cases hb : s.busy with
  | true => rw [runCommand_busy hb] at h; cases h
  | false => rw [runCommand_idle hb] at h; cases h; exact ⟨rfl, rfl⟩

@[simp] theorem Ended.finish_normally (s : State) : (Ended.normally s).finish = s.complete := rfl

@[simp] theorem Ended.finish_raised (e : ErrorKind) (s : State) :
    (Ended.raised e s).finish = (s.raiseError e).complete := rfl

/-- The state a body ended in, before the epilogue. -/
def Ended.last : Ended → State
  | .normally s => s
  | .raised _ s => s

/-- The body of each command. -/
def bodyOf : Instr → State → Ended
  | .nop => .normally
  | .ident => identBody
  | .order => orderBody
  | .scatter => withLegalWalk scatterWalk
  | .gather => withLegalWalk gatherWalk
  | .gathern => withLegalWalk gathernWalk

/-- Every arm of `exec` is a command: acceptance, its body, completion. -/
theorem exec_eq (i : Instr) (s : State) : exec i s = runCommand (bodyOf i) s := by cases i <;> rfl

/-- What `exec` can do, said once. -/
theorem exec_next {i : Instr} {s t : State} (h : exec i s = .next t) :
    s.busy = false ∧ t = (bodyOf i s.accept).finish := runCommand_next (exec_eq i s ▸ h)

theorem exec_idle (i : Instr) {s : State} (h : s.busy = false) : exec i s = .next (bodyOf i s.accept).finish := by
  rw [exec_eq, runCommand_idle h]

/-! ## The checks of the data commands -/

theorem Depth.ofField_one : Depth.ofField 1 = some .one := rfl
theorem Depth.ofField_two : Depth.ofField 2 = some .two := rfl
theorem Depth.ofField_zero : Depth.ofField 0 = none := rfl
theorem Depth.ofField_three : Depth.ofField 3 = none := rfl

/-- The three ways through the shared checks. -/
theorem withLegalWalk_cases (body : Depth → State → Ended) (s : State) :
    (Depth.ofField s.bpc = none ∧ withLegalWalk body s = .raised .invalidConfiguration s) ∨
    (∃ d, Depth.ofField s.bpc = some d ∧ s.ordValid = false ∧ withLegalWalk body s = .raised .orderNotReady s) ∨
    (∃ d, Depth.ofField s.bpc = some d ∧ s.ordValid = true ∧ withLegalWalk body s = body d s) := by
  unfold withLegalWalk
  cases h : Depth.ofField s.bpc with
  | none => simp
  | some d => cases hv : s.ordValid <;> simp

theorem withLegalWalk_ready {body : Depth → State → Ended} {s : State} {d : Depth}
    (hd : Depth.ofField s.bpc = some d) (hv : s.ordValid = true) : withLegalWalk body s = body d s := by
  simp [withLegalWalk, hd, hv]

/-! ## What each body can do -/

/-- IDENT: too many pixels, or the identity sequence. -/
theorem identBody_cases (s : State) :
    (s.maxPixels < s.pixels ∧ identBody s = .raised .invalidConfiguration s) ∨
    (s.pixels ≤ s.maxPixels ∧ identBody s = .normally (s.selectOrder (identityOrder s.pixels))) := by
  unfold identBody
  split
  · exact .inl ⟨by assumption, rfl⟩
  · exact .inr ⟨by omega, rfl⟩

/-- ORDER: too many pixels, or the shuffle and PRNG. -/
theorem orderBody_cases (s : State) :
    (s.maxPixels < s.pixels ∧ orderBody s = .raised .invalidConfiguration s) ∨
    (s.pixels ≤ s.maxPixels ∧ orderBody s =
      .normally ((s.recordPrng (shuffledOrder s.pixels s.seed).1).selectOrder (shuffledOrder s.pixels s.seed).2)) := by
  unfold orderBody
  split
  · exact .inl ⟨by assumption, rfl⟩
  · exact .inr ⟨by omega, rfl⟩

/-- SCATTER after the shared checks: too long a payload, or the beats. -/
theorem scatterWalk_cases (d : Depth) (s : State) :
    (capacity s.pixels d < s.payLen.toNat ∧ scatterWalk d s = .raised .capacityExceeded s) ∨
    (s.payLen.toNat ≤ capacity s.pixels d ∧ scatterWalk d s = .normally (s.scatterFrom d s.payLen.toNat)) := by
  unfold scatterWalk
  simp only
  split
  · exact .inl ⟨by assumption, rfl⟩
  · exact .inr ⟨by omega, rfl⟩

/-- GATHERN after the shared checks: too many bytes asked for, or the bytes. -/
theorem gathernWalk_cases (d : Depth) (s : State) :
    (capacity s.pixels d < s.payLen.toNat ∧ gathernWalk d s = .raised .insufficientBits s) ∨
    (s.payLen.toNat ≤ capacity s.pixels d ∧ gathernWalk d s = .normally (s.gatherTo d 0 s.payLen.toNat)) := by
  unfold gathernWalk
  simp only
  split
  · exact .inl ⟨by assumption, rfl⟩
  · exact .inr ⟨by omega, rfl⟩

/-- GATHER after the shared checks: its four ends (44_gather.md R112, R115). -/
theorem gatherWalk_cases (d : Depth) (s : State) :
    (capacity s.pixels d < hdrLen ∧ gatherWalk d s = .raised .insufficientBits s) ∨
    (hdrLen ≤ capacity s.pixels d ∧ magicOk (s.gatherTo d 0 hdrLen).payByte = false ∧
      gatherWalk d s = .raised .badMagic (s.gatherTo d 0 hdrLen)) ∨
    (hdrLen ≤ capacity s.pixels d ∧ magicOk (s.gatherTo d 0 hdrLen).payByte = true ∧
      capacity s.pixels d < hdrLen + (headerSize (s.gatherTo d 0 hdrLen).payByte).toNat ∧
      gatherWalk d s = .raised .insufficientBits (s.gatherTo d 0 hdrLen).recordHeader) ∨
    (hdrLen ≤ capacity s.pixels d ∧ magicOk (s.gatherTo d 0 hdrLen).payByte = true ∧
      hdrLen + (headerSize (s.gatherTo d 0 hdrLen).payByte).toNat ≤ capacity s.pixels d ∧
      gatherWalk d s = .normally ((s.gatherTo d 0 hdrLen).recordHeader.gatherTo d hdrLen
        (headerSize (s.gatherTo d 0 hdrLen).payByte).toNat)) := by
  unfold gatherWalk
  simp only [State.recordHeader_hdrSize]
  by_cases h1 : capacity s.pixels d < hdrLen
  · exact .inl ⟨h1, if_pos h1⟩
  · rw [if_neg h1]
    have h1' : hdrLen ≤ capacity s.pixels d := by omega
    cases h2 : magicOk (s.gatherTo d 0 hdrLen).payByte with
    | false => exact .inr (.inl ⟨h1', rfl, rfl⟩)
    | true =>
      by_cases h3 : capacity s.pixels d < hdrLen + (headerSize (s.gatherTo d 0 hdrLen).payByte).toNat
      · exact .inr (.inr (.inl ⟨h1', rfl, h3, if_pos h3⟩))
      · exact .inr (.inr (.inr ⟨h1', rfl, by omega, if_neg h3⟩))

/-! ## Host accesses -/

/-- A host access to a memory answers a next state exactly when the unit is idle and the address exists. -/
theorem hostMemAccess_next {inside : Bool} {f : Fault} {eff : State → State} {s t : State}
    (h : hostMemAccess inside f eff s = .next t) : s.busy = false ∧ inside = true ∧ t = eff s := by
  cases hb : s.busy <;> cases inside <;> simp_all [hostMemAccess]

theorem hostMemAccess_idle {inside : Bool} {f : Fault} {eff : State → State} {s : State} (hb : s.busy = false)
    (hi : inside = true) : hostMemAccess inside f eff s = .next (eff s) := by simp [hostMemAccess, hb, hi]

/-! ## The PAY writes of a gather -/

/-- What a gather of `n` bytes from index `m` leaves in PAY. -/
theorem State.gatherTo_payByte (s : State) (d : Depth) (m n j : Nat) :
    (s.gatherTo d m n).payByte j = if m ≤ j ∧ j < m + n then s.gatherByte d j else s.payByte j := by
  unfold State.payByte
  simp only [State.gatherTo_pay, State.gatherTo_memEpoch, Memory.readAs_storeBytes, List.length_map, List.length_range]
  by_cases h : m ≤ j ∧ j < m + n
  · have h2 : j - m < n := by omega
    rw [if_pos h, if_pos h, List.getD_eq_getElem?_getD]
    simp [h2, show m + (j - m) = j by omega]
  · rw [if_neg h, if_neg h]

/-! ## Sizes -/

theorem Depth.bits_cases (d : Depth) : (d.bits = 1 ∧ d.groupsPerByte = 8) ∨ (d.bits = 2 ∧ d.groupsPerByte = 4) := by
  cases d <;> decide

theorem groupCount_eq (len : Nat) (d : Depth) : groupCount len d = len * d.groupsPerByte := by
  cases d <;> simp [groupCount, Depth.groupsPerByte, Depth.bits] <;> omega

/-- L ≤ cap means that the groups of L bytes fit the channels. -/
theorem le_capacity_iff (n len : Nat) (d : Depth) : len ≤ capacity n d ↔ len * d.groupsPerByte ≤ 3 * n := by
  cases d <;> simp [capacity, Depth.groupsPerByte, Depth.bits] <;> omega

theorem State.maxPixels_lt (s : State) : s.maxPixels ≤ 1431655765 := s.pixelLimit.isLt

theorem State.pixels_lt (s : State) : s.pixels ≤ 4294836225 := by
  have h1 := s.width.isLt
  have h2 := s.height.isLt
  calc s.pixels ≤ 65535 * 65535 := Nat.mul_le_mul (by omega) (by omega)
    _ = 4294836225 := by norm_num

/-- A capacity fits 32 bits. -/
theorem State.capacity_lt (s : State) (d : Depth) : capacity s.pixels d ≤ 3221127168 := by
  have := s.pixels_lt
  cases d <;> simp only [capacity, Depth.bits] <;> omega

end Sys2Proof.Machine
end

