-- ==== Sys2Proof/Laws/PerInstr.lean ====
section
/-! SUPPORT. The per-instruction family: the encoding of each command as a row of the opcode map (30_encoding.md R60, R61). -/

namespace Sys2Proof.Laws.EncodingShape

/-- The command's word has ZERO = 0 and OPC = its opcode, and it is the word that the command's row of the table selects. -/
def Statement (i : Instr) : Prop :=
  i.wellFormed = true ∧ zeroField (encode i) = 0 ∧ opcField (encode i) = opcode i ∧ legalWord (encode i) = true ∧
    ∃ row ∈ commandTable, row.command = i ∧ row.selects (encode i) = true ∧ row.pattern = encode i

theorem nop : Statement .nop :=
  ⟨by decide, by decide, by decide, by decide, commandTable[0], by decide, by decide, by decide, by decide⟩

theorem ident : Statement .ident :=
  ⟨by decide, by decide, by decide, by decide, commandTable[1], by decide, by decide, by decide, by decide⟩

theorem order : Statement .order :=
  ⟨by decide, by decide, by decide, by decide, commandTable[2], by decide, by decide, by decide, by decide⟩

theorem scatter : Statement .scatter :=
  ⟨by decide, by decide, by decide, by decide, commandTable[3], by decide, by decide, by decide, by decide⟩

theorem gather : Statement .gather :=
  ⟨by decide, by decide, by decide, by decide, commandTable[4], by decide, by decide, by decide, by decide⟩

theorem gathern : Statement .gathern :=
  ⟨by decide, by decide, by decide, by decide, commandTable[5], by decide, by decide, by decide, by decide⟩

end Sys2Proof.Laws.EncodingShape
end

