-- ==== Sys2Proof/Laws/Scatter.lean ====
section
/-! SUPPORT. What a run of scatter beats leaves in the image: an address no beat visits, and an address one beat visits. -/

namespace Sys2Proof.Machine

@[simp] theorem State.payload_length (s : State) (len : Nat) : (s.payload len).length = len := by simp [State.payload]

theorem State.payload_getD (s : State) {len j : Nat} (h : j < len) : (s.payload len).getD j 0 = s.payByte j := by
  simp [State.payload, h]

/-- A channel no beat visits keeps its byte. -/
theorem readAs_scatterBeats_unvisited (s : State) (B : List Byte) (d : Depth) (gs : List Nat) (m : Memory) (a : Nat)
    (h : ∀ g ∈ gs, s.walkAddr g ≠ a) :
    (gs.foldl (scatterBeat s B d) m).readAs .img s.memEpoch a = m.readAs .img s.memEpoch a := by
  induction gs generalizing m with
  | nil => rfl
  | cons g gs ih =>
    rw [List.foldl_cons, ih _ fun k hk => h k (by simp [hk])]
    simp only [scatterBeat, Memory.readAs_store]
    rw [if_neg (Ne.symm (h g (by simp)))]

/-- A channel exactly one beat visits gets that beat's group. -/
theorem readAs_scatterBeats_visited (s : State) (B : List Byte) (d : Depth) (gs : List Nat) (m : Memory) {g : Nat}
    (hg : g ∈ gs) (hn : gs.Nodup) (hi : ∀ g ∈ gs, ∀ k ∈ gs, s.walkAddr g = s.walkAddr k → g = k) :
    (gs.foldl (scatterBeat s B d) m).readAs .img s.memEpoch (s.walkAddr g) =
      insertBits (m.readAs .img s.memEpoch (s.walkAddr g)) (groupValue B g d) d := by
  induction gs generalizing m with
  | nil => simp at hg
  | cons k gs ih =>
    rw [List.foldl_cons]
    rw [List.nodup_cons] at hn
    by_cases e : g = k
    · subst e
      rw [readAs_scatterBeats_unvisited]
      · simp [scatterBeat, Memory.readAs_store]
      · intro q hq he
        exact hn.1 (hi q (by simp [hq]) g (by simp) he ▸ hq)
    · rw [ih _ (by simpa [e] using hg) hn.2 fun a ha b hb => hi a (by simp [ha]) b (by simp [hb])]
      simp only [scatterBeat, Memory.readAs_store]
      rw [if_neg fun he => e (hi g hg k (by simp) he)]

/-- Beats keep the canonical form. -/
theorem scatterBeats_wf (s : State) (B : List Byte) (d : Depth) (gs : List Nat) {m : Memory} (h : m.wf = true) :
    (gs.foldl (scatterBeat s B d) m).wf = true := by
  induction gs generalizing m with
  | nil => exact h
  | cons g gs ih => exact ih (Memory.store_wf _ _ h)

/-- Beats at addresses below a depth keep the memory below it. -/
theorem scatterBeats_below (s : State) (B : List Byte) (d : Depth) (gs : List Nat) {m : Memory} {depth : Nat}
    (h : m.Below depth) (hg : ∀ g ∈ gs, s.walkAddr g < depth) : (gs.foldl (scatterBeat s B d) m).Below depth := by
  induction gs generalizing m with
  | nil => exact h
  | cons g gs ih => exact ih (Memory.store_below _ h (hg g (by simp))) fun k hk => hg k (by simp [hk])

end Sys2Proof.Machine
end

