-- ==== Sys2Proof/Laws/Shuffle.lean ====
section
/-! SUPPORT. The shuffle's table operations: what a swap does to an entry, and what the loop keeps (42_order.md R93, R95). -/

namespace Sys2Proof.Machine

@[simp] theorem swapEntries_length (l : List Word) (i j : Nat) : (swapEntries l i j).length = l.length := by
  simp [swapEntries]

/-- Entry k after the swap of entries i and j of the table. -/
theorem swapEntries_getD (l : List Word) {i j k : Nat} (hi : i < l.length) (hj : j < l.length) :
    (swapEntries l i j).getD k 0 = if k = i then l.getD j 0 else if k = j then l.getD i 0 else l.getD k 0 := by
  simp only [swapEntries, List.getD_eq_getElem?_getD, List.getElem?_set, List.length_set]
  by_cases h1 : j = k
  · subst h1
    by_cases h2 : j = i
    · subst h2; simp [hj]
    · simp [hj, h2]
  · by_cases h2 : i = k
    · subst h2; simp [h1, hi]
    · simp [h1, h2, Ne.symm h1, Ne.symm h2]

/-- A swap rearranges the table. -/
theorem swapEntries_perm (l : List Word) {i j : Nat} (hi : i < l.length) (hj : j < l.length) :
    (swapEntries l i j).Perm l := by
  have := List.set_set_perm (as := l) hi hj
  simpa [swapEntries, hi, hj] using this

@[simp] theorem shuffleFrom_length (i : Nat) (s : Word) (l : List Word) : (shuffleFrom i s l).2.length = l.length := by
  induction i generalizing s l with
  | zero => rfl
  | succ i ih => simp [shuffleFrom, ih]

@[simp] theorem identityOrder_length (n : Nat) : (identityOrder n).length = n := by simp [identityOrder]

@[simp] theorem shuffledOrder_length (n : Nat) (seed : Word) : (shuffledOrder n seed).2.length = n := by
  simp [shuffledOrder]

/-- The numbers of the identity sequence: n is at most 2^32 for every geometry, so no entry wraps. -/
theorem identityOrder_toNat {n : Nat} (hn : n ≤ 2 ^ 32) : (identityOrder n).map BitVec.toNat = List.range n := by
  apply List.ext_getElem
  · simp [identityOrder]
  · intro k h1 h2
    simp [identityOrder] at h1 ⊢
    omega

end Sys2Proof.Machine
end

