-- ==== Sys2Proof/Laws/Step.lean ====
section
/-! SUPPORT. What a command word, a transaction and a step can do, said once: if it answers a next state, then one of the
listed cases holds. -/

namespace Sys2Proof.Machine

/-- Every way the body of a command can end. -/
theorem bodyOf_cases (i : Instr) (s : State) :
    (∃ e, bodyOf i s = .raised e s) ∨
    (i = .nop ∧ bodyOf i s = .normally s) ∨
    (i = .ident ∧ s.pixels ≤ s.maxPixels ∧ bodyOf i s = .normally (s.selectOrder (identityOrder s.pixels))) ∨
    (i = .order ∧ s.pixels ≤ s.maxPixels ∧ bodyOf i s =
      .normally ((s.recordPrng (shuffledOrder s.pixels s.seed).1).selectOrder (shuffledOrder s.pixels s.seed).2)) ∨
    (∃ d, Depth.ofField s.bpc = some d ∧ s.ordValid = true ∧
      ((i = .scatter ∧ s.payLen.toNat ≤ capacity s.pixels d ∧
          bodyOf i s = .normally (s.scatterFrom d s.payLen.toNat)) ∨
       (i = .gathern ∧ s.payLen.toNat ≤ capacity s.pixels d ∧
          bodyOf i s = .normally (s.gatherTo d 0 s.payLen.toNat)) ∨
       (i = .gather ∧ hdrLen ≤ capacity s.pixels d ∧
          (bodyOf i s = .raised .badMagic (s.gatherTo d 0 hdrLen) ∨
           bodyOf i s = .raised .insufficientBits (s.gatherTo d 0 hdrLen).recordHeader ∨
           ∃ n, hdrLen + n ≤ capacity s.pixels d ∧
             bodyOf i s = .normally ((s.gatherTo d 0 hdrLen).recordHeader.gatherTo d hdrLen n))))) := by
  cases i with
  | nop => exact .inr (.inl ⟨rfl, rfl⟩)
  | ident =>
    rcases identBody_cases s with ⟨_, e⟩ | ⟨h, e⟩
    · exact .inl ⟨_, e⟩
    · exact .inr (.inr (.inl ⟨rfl, h, e⟩))
  | order =>
    rcases orderBody_cases s with ⟨_, e⟩ | ⟨h, e⟩
    · exact .inl ⟨_, e⟩
    · exact .inr (.inr (.inr (.inl ⟨rfl, h, e⟩)))
  | scatter =>
    rcases withLegalWalk_cases scatterWalk s with ⟨_, e⟩ | ⟨d, _, _, e⟩ | ⟨d, hd, hv, e⟩
    · exact .inl ⟨_, e⟩
    · exact .inl ⟨_, e⟩
    · rcases scatterWalk_cases d s with ⟨_, e'⟩ | ⟨h, e'⟩
      · exact .inl ⟨_, e.trans e'⟩
      · exact .inr (.inr (.inr (.inr ⟨d, hd, hv, .inl ⟨rfl, h, e.trans e'⟩⟩)))
  | gathern =>
    rcases withLegalWalk_cases gathernWalk s with ⟨_, e⟩ | ⟨d, _, _, e⟩ | ⟨d, hd, hv, e⟩
    · exact .inl ⟨_, e⟩
    · exact .inl ⟨_, e⟩
    · rcases gathernWalk_cases d s with ⟨_, e'⟩ | ⟨h, e'⟩
      · exact .inl ⟨_, e.trans e'⟩
      · exact .inr (.inr (.inr (.inr ⟨d, hd, hv, .inr (.inl ⟨rfl, h, e.trans e'⟩)⟩)))
  | gather =>
    rcases withLegalWalk_cases gatherWalk s with ⟨_, e⟩ | ⟨d, _, _, e⟩ | ⟨d, hd, hv, e⟩
    · exact .inl ⟨_, e⟩
    · exact .inl ⟨_, e⟩
    · rcases gatherWalk_cases d s with ⟨_, e'⟩ | ⟨h, _, e'⟩ | ⟨h, _, _, e'⟩ | ⟨h, _, h2, e'⟩
      · exact .inl ⟨_, e.trans e'⟩
      · exact .inr (.inr (.inr (.inr ⟨d, hd, hv, .inr (.inr ⟨rfl, h, .inl (e.trans e')⟩)⟩)))
      · exact .inr (.inr (.inr (.inr ⟨d, hd, hv, .inr (.inr ⟨rfl, h, .inr (.inl (e.trans e'))⟩)⟩)))
      · exact .inr (.inr (.inr (.inr ⟨d, hd, hv, .inr (.inr ⟨rfl, h, .inr (.inr ⟨_, h2, e.trans e'⟩)⟩)⟩)))

/-- What a command word can do. -/
theorem runWord_next {w : Word} {s t : State} (h : runWord w s = .next t) :
    s.busy = false ∧ ((∃ i, decode w = .ok i ∧ t = (bodyOf i s.accept).finish) ∨
      t = (s.accept.raiseError .invalidCommand).complete) := by
  unfold runWord at h
  cases hd : decode w with
  | ok i => rw [hd] at h; obtain ⟨a, b⟩ := exec_next h; exact ⟨a, .inl ⟨i, rfl, b⟩⟩
  | error e => rw [hd] at h; obtain ⟨a, b⟩ := runCommand_next h; exact ⟨a, .inr b⟩

/-- What a register read can do. -/
theorem hostRegRead_next {o n : Nat} {s t : State} (h : hostRegRead o n s = .next t) :
    t = s.answer (.reg o (s.regValue (Reg.atOffset o))) := by
  unfold hostRegRead at h
  cases hb : badRegisterAccess o n with
  | some r => simp [hb] at h
  | none =>
    simp only [hb] at h
    split at h
    · cases h
    · simpa using h.symm

/-- What a register write can do. -/
theorem hostRegWrite_next {o n : Nat} {v : Word} {s t : State} (h : hostRegWrite o n v s = .next t) :
    s.busy = false ∧ n = 32 ∧ ((o = 0x14 ∧ runWord v s = .next t) ∨
      (Reg.atOffset o ≠ .cmd ∧ t = s.regWrite (Reg.atOffset o) v)) := by
  unfold hostRegWrite at h
  cases hb : badRegisterAccess o n with
  | some r => simp [hb] at h
  | none =>
    simp only [hb] at h
    have h32 : n = 32 := by unfold badRegisterAccess at hb; split at hb <;> simp_all
    by_cases hbz : s.busy
    · simp [hbz] at h
    · simp only [hbz] at h
      by_cases hc : Reg.atOffset o = .cmd
      · have ho : o = 0x14 := by unfold Reg.atOffset at hc; split at hc <;> simp_all
        simp [hc] at h
        exact ⟨by simpa using hbz, h32, .inl ⟨ho, h⟩⟩
      · simp [hc] at h
        exact ⟨by simpa using hbz, h32, .inr ⟨hc, h.symm⟩⟩

/-- A write to WIDTH or HEIGHT clears ORD_VALID; no other register write touches it. -/
theorem State.regWrite_ordValid (s : State) (o : Nat) (v : Word) : (s.regWrite (Reg.atOffset o) v).ordValid =
    if o = 0x04 ∨ o = 0x08 then false else s.ordValid := by
  by_cases h4 : o = 4
  · subst h4; rfl
  by_cases h8 : o = 8
  · subst h8; rfl
  simp only [h4, h8, or_self, if_false]
  cases hr : Reg.atOffset o <;> simp only [State.regWrite]
  · exfalso; unfold Reg.atOffset at hr; split at hr <;> simp_all
  · exfalso; unfold Reg.atOffset at hr; split at hr <;> simp_all

theorem State.readOrder_cases (s : State) (k : Nat) : s.readOrder k = s.answer (.ord k (s.ordEntry k)) ∨
    s.readOrder k = { s.answer (.ord k (s.ordEntry k)) with ordEpoch := s.ordEpoch + 1 } := by
  unfold State.readOrder; simp only; split <;> simp

/-- Every way a transaction can answer a next state. -/
theorem transact_next {act : BusAction} {s t : State} (h : transact act s = .next t) :
    (∃ r ep, t = { s.answer r with ordEpoch := ep }) ∨
    (∃ o v, act = .regWrite o 32 v ∧ s.busy = false ∧ Reg.atOffset o ≠ .cmd ∧ t = s.regWrite (Reg.atOffset o) v) ∨
    (∃ v, act = .regWrite 0x14 32 v ∧ s.busy = false ∧ runWord v s = .next t) ∨
    (∃ a v, act = .imgWrite a v ∧ a < s.imgDepth ∧ s.busy = false ∧ t = { s with img := s.img.store a v }) ∨
    (∃ a v, act = .payWrite a v ∧ a < s.payDepth ∧ s.busy = false ∧ t = { s with pay := s.pay.store a v }) ∨
    t = s ∨ (act = .platformReset ∧ t = s.platformReset) := by
  cases act with
  | regRead o n => exact .inl ⟨_, s.ordEpoch, hostRegRead_next h⟩
  | regWrite o n v =>
    obtain ⟨hb, rfl, ⟨rfl, h'⟩ | ⟨hc, h'⟩⟩ := hostRegWrite_next h
    · exact .inr (.inr (.inl ⟨v, rfl, hb, h'⟩))
    · exact .inr (.inl ⟨o, v, rfl, hb, hc, h'⟩)
  | imgRead a =>
    simp only [transact] at h
    obtain ⟨_, _, rfl⟩ := hostMemAccess_next h
    exact .inl ⟨_, s.ordEpoch, rfl⟩
  | payRead a =>
    simp only [transact] at h
    obtain ⟨_, _, rfl⟩ := hostMemAccess_next h
    exact .inl ⟨_, s.ordEpoch, rfl⟩
  | imgWrite a v =>
    simp only [transact] at h
    obtain ⟨hb, hi, rfl⟩ := hostMemAccess_next h
    exact .inr (.inr (.inr (.inl ⟨a, v, rfl, by simpa using hi, hb, rfl⟩)))
  | payWrite a v =>
    simp only [transact] at h
    obtain ⟨hb, hi, rfl⟩ := hostMemAccess_next h
    exact .inr (.inr (.inr (.inr (.inl ⟨a, v, rfl, by simpa using hi, hb, rfl⟩))))
  | ordRead k =>
    simp only [transact] at h
    obtain ⟨_, _, rfl⟩ := hostMemAccess_next h
    rcases s.readOrder_cases k with e | e <;> rw [e]
    · exact .inl ⟨_, s.ordEpoch, rfl⟩
    · exact .inl ⟨_, s.ordEpoch + 1, rfl⟩
  | ordWrite k v =>
    simp only [transact] at h
    obtain ⟨_, _, rfl⟩ := hostMemAccess_next h
    exact .inr (.inr (.inr (.inr (.inr (.inl rfl)))))
  | platformReset => cases h; exact .inr (.inr (.inr (.inr (.inr (.inr ⟨rfl, rfl⟩)))))

/-- What a step can do: nothing, or the next action of the script. -/
theorem step_next {s t : State} (h : step s = .next t) : (s.script = [] ∧ t = s) ∨
    ∃ act rest, s.script = act :: rest ∧ transact act { s with script := rest } = .next t := by
  unfold step perform at h
  cases hs : s.script with
  | nil => rw [hs] at h; cases h; exact .inl ⟨rfl, rfl⟩
  | cons a r => rw [hs] at h; exact .inr ⟨a, r, rfl, h⟩

end Sys2Proof.Machine
end

