-- ==== Sys2Proof/Machine/HostProgram.lean ====
section
/-! DEFINITION. The host notation and its pseudo-actions (30_encoding.md R65, R66), and the host's own conventions on how it
lays out an image and reads a digest (20_memory.md R42, 42_order.md R94). Nothing here is the unit's; the functions give
lists of `BusAction` that a host may put into `State.script`. -/

namespace Sys2Proof.Machine

/-- `WR <reg>, <value>` (30_encoding.md R65). -/
def wr (offset : Nat) (v : Word) : BusAction := .regWrite offset 32 v

/-- `RD <reg>` (30_encoding.md R65). -/
def rd (offset : Nat) : BusAction := .regRead offset 32

/-- `IMGW <addr>, <bytes>` (30_encoding.md R65). -/
def imgw (a : Nat) (bytes : List Byte) : List BusAction := bytes.zipIdx.map fun p => .imgWrite (a + p.2) p.1

/-- `IMGR <addr>, <count>` (30_encoding.md R65). -/
def imgr (a count : Nat) : List BusAction := (List.range count).map fun k => .imgRead (a + k)

/-- `PAYW <addr>, <bytes>` (30_encoding.md R65). -/
def payw (a : Nat) (bytes : List Byte) : List BusAction := bytes.zipIdx.map fun p => .payWrite (a + p.2) p.1

/-- `PAYR <addr>, <count>` (30_encoding.md R65). -/
def payr (a count : Nat) : List BusAction := (List.range count).map fun k => .payRead (a + k)

/-- `ORDR <k>, <count>` (30_encoding.md R65). -/
def ordr (k count : Nat) : List BusAction := (List.range count).map fun j => .ordRead (k + j)

/-- `CMD <mnemonic>` (30_encoding.md R66). -/
def cmd (i : Instr) : BusAction := commandWrite (encode i)

/-- `WAIT`: "in a model that executes commands atomically, one RD STATUS" (30_encoding.md R66). -/
def wait : BusAction := rd 0x18

/-- `GEOM <w>, <h>` (30_encoding.md R66). -/
def geom (w h : Word) : List BusAction := [wr 0x04 w, wr 0x08 h]

/-- `EMBED` (30_encoding.md R66). -/
def embed : List BusAction := [cmd .order, wait, cmd .scatter, wait]

/-- `EXTRACT` (30_encoding.md R66). -/
def extract : List BusAction := [cmd .order, wait, cmd .gather, wait]

/-- Row-major pixel index of column x, row y (20_memory.md R42): tells the host where a pixel lies; the unit never
computes it. -/
def pixelIndex (width x y : Nat) : Nat := y * width + x

/-- SEED of a 32-byte digest read as a big-endian number and reduced modulo 2^32 (42_order.md R94): the host's work. -/
def seedOfDigest (digest : List Byte) : Word :=
  BitVec.ofNat 32 (digest.foldl (fun acc b => acc * 256 + b.toNat) 0)

end Sys2Proof.Machine
end

