-- ==== Sys2Proof/Tests/Slice0.lean ====
section
/-! SUPPORT. Tests against the spec's own tables and programs (95_test_vectors.md), the smoke test of the well-formedness
checks, and one witness for the hypotheses of each statement. Every expected value is copied from the spec. -/

open Sys2Proof Sys2Proof.Machine

namespace Sys2Proof.Tests

/-! ## Helpers -/

/-- The next state of a command holds `f`. -/
def runs (i : Instr) (s : State) (f : State → Bool) : Bool :=
  match exec i s with
  | .next t => f t
  | _ => false

/-- The next state of a command; the state itself where there is none. -/
def after (i : Instr) (s : State) : State :=
  match exec i s with
  | .next t => t
  | _ => s

theorem exec_after (i : Instr) {s : State} (h : s.busy = false) : exec i s = .next (after i s) := by
  rw [after, exec_idle i h]

/-- The bytes of a list from address 0 up. -/
def bytesAt (bs : List Nat) : Memory := bs.zipIdx.map fun p => (p.2, BitVec.ofNat 8 p.1)

/-- An order table. -/
def orderOf (l : List Nat) : List Word := l.map (BitVec.ofNat 32)

/-- An instance with MAX_PIXELS = 16384 just after reset (95_test_vectors.md P4 asks for 16384 to 39999). -/
def idle : State := { State.reset with pixelLimit := 16383 }

/-- `idle` with a 4 × 2 image. -/
def fourByTwo : State := { idle with width := 4, height := 2 }

/-- `idle` with a command in progress. -/
def running : State := { idle with busy := true }

/-- The start of program P1 (95_test_vectors.md). -/
def p1 : State :=
  { fourByTwo with
    bpc := 1, payLen := 2, pay := bytesAt [0xA5, 0x3C]
    img := bytesAt [0x10, 0x11, 0x12, 0x13, 0x14, 0x15, 0x16, 0x17, 0x18, 0x19, 0x1A, 0x1B, 0x1C, 0x1D, 0x1E, 0x1F,
      0x20, 0x21, 0x22, 0x23, 0x24, 0x25, 0x26, 0x27] }

/-- Program P2 between its ORDER and its SCATTER (95_test_vectors.md). -/
def p2 : State :=
  { fourByTwo with
    bpc := 2, payLen := 3, pay := bytesAt [0xC9, 0x1E, 0x70]
    img := bytesAt [0xFF, 0x00, 0x80, 0x7F, 0x01, 0xFE, 0x55, 0xAA, 0x33, 0xCC, 0x0F, 0xF0, 0x12, 0x34, 0x56, 0x78,
      0x9A, 0xBC, 0xDE, 0xF0, 0x11, 0x22, 0x44, 0x88]
    ord := orderOf [4, 1, 5, 3, 0, 7, 6, 2], ordValid := true, prng := 0xBA2529D0 }

/-- Program P2 at its GATHERN (95_test_vectors.md). -/
def p2Gather : State :=
  { p2 with
    pay := bytesAt [0, 0, 0]
    img := bytesAt [0xFF, 0x00, 0x80, 0x7D, 0x00, 0xFD, 0x55, 0xAA, 0x33, 0xCF, 0x0C, 0xF0, 0x13, 0x34, 0x56, 0x7B,
      0x9A, 0xBD, 0xDE, 0xF0, 0x11, 0x22, 0x44, 0x88] }

/-- A bare header: the magic, a size, 32 checksum bytes, a flags byte (95_test_vectors.md 2.7 (c)). -/
def header (size : Nat) : List Nat := [0x53, 0x54, 0x45, 0x47, 0, 0, 0, size] ++ List.replicate 32 0xC5 ++ [0x02]

/-- 55 × 1 pixels at two bits per channel in the identity order, cap = 41 exactly (95_test_vectors.md 2.5), with a payload
in PAY and the payload's groups in the channels. -/
def framed (bs : List Nat) : State :=
  { idle with
    bpc := 2, width := 55, height := 1, ordValid := true, ord := identityOrder 55
    payLen := 41, pay := bytesAt bs
    img := (List.range 165).map fun g => (g, groupValue (bs.map (BitVec.ofNat 8)) g .two) }

/-! ## Words, fields and checks -/

theorem test_decode_nop : decode 0b00000000000000000000000000000000#32 = .ok .nop := by decide
theorem test_decode_ident : decode 0b00000000000000000000000000000001#32 = .ok .ident := by decide
theorem test_decode_order : decode 0b00000000000000000000000000000010#32 = .ok .order := by decide
theorem test_decode_scatter : decode 0b00000000000000000000000000000011#32 = .ok .scatter := by decide
theorem test_decode_gather : decode 0b00000000000000000000000000000100#32 = .ok .gather := by decide
theorem test_decode_gathern : decode 0b00000000000000000000000000000101#32 = .ok .gathern := by decide

/-- The first reserved opcode, the last one, and a command's opcode under a ZERO field that is not 0 (R62). -/
theorem test_decode_illegal : decode 0x00000006 = .error .reservedOpcode ∧ decode 0x000000FF = .error .reservedOpcode ∧
    decode 0x00000103 = .error .zeroFieldSet ∧ decode 0x80000000 = .error .zeroFieldSet := by decide

/-- The well-formedness checks accept the six words and refuse ill-formed ones (R62). -/
theorem test_legalWord_smoke : legalWord 0 = true ∧ legalWord 5 = true ∧ legalWord 6 = false ∧ legalWord 0xFF = false ∧
    legalWord 0x103 = false ∧ legalWord 0x80000002 = false := by decide

/-- One ill-formed register access for each check of `badRegisterAccess` (U4), and a good one at each end. -/
theorem test_badRegisterAccess_smoke : badRegisterAccess 0 16 = some .registerAccessNotAWord ∧
    badRegisterAccess 0x12 32 = some .registerOffsetMisaligned ∧
    badRegisterAccess 0x40 32 = some .registerOffsetOutsideWindow ∧
    badRegisterAccess 0 32 = none ∧ badRegisterAccess 0x3C 32 = none := by decide

/-- The memory's canonical form refuses a repeated address and a falling one. -/
theorem test_wf_smoke : Memory.wf [(1, 7), (1, 7)] = false ∧ Memory.wf [(2, 7), (1, 7)] = false ∧
    Memory.wf [(1, 7), (2, 7)] = true := by decide

/-- The host's question: every row's word runs as the first step. -/
theorem test_withFetchWord_steps : ∀ w < 6, ∃ i, decodeTableWord 32 w = some i ∧
    step (State.reset.withFetchWord 32 w) = exec i State.reset := by
  intro w h
  have : w = 0 ∨ w = 1 ∨ w = 2 ∨ w = 3 ∨ w = 4 ∨ w = 5 := by omega
  rcases this with rfl | rfl | rfl | rfl | rfl | rfl <;> exact ⟨_, rfl, rfl⟩

/-! ## The data path (95_test_vectors.md 2.1, 2.2) -/

theorem test_groups_bpc1 : (List.range 8).map (fun g => groupValue [0xA5] g .one) = [1, 0, 1, 0, 0, 1, 0, 1] := by decide
theorem test_groups_bpc2 : (List.range 12).map (fun g => groupValue [0xC9, 0x1E, 0x70] g .two) =
    [3, 0, 2, 1, 0, 1, 3, 2, 1, 3, 0, 0] := by decide
theorem test_pack : pack [2, 2, 1, 1] .two = 0xA5 ∧ pack [3, 0, 2, 1] .two = 0xC9 ∧
    pack [1, 0, 1, 0, 0, 1, 0, 1] .one = 0xA5 := by decide
theorem test_bytesOf : bytesOf [true, false, true, false, false, true, false, true] = some [0xA5] ∧
    bytesOf (List.replicate 12 false) = none ∧ bitsOf [0x80] = true :: List.replicate 7 false := by decide
theorem test_insert : insertBits 0xFE 1 .one = 0xFF ∧ insertBits 0x7F 1 .two = 0x7D ∧ insertBits 0xA5 2 .two = 0xA6 ∧
    insertBits 0xFF 0 .two = 0xFC ∧ insertBits 0x12 3 .two = 0x13 := by decide
theorem test_low : lowBits 0xFE .one = 0 ∧ lowBits 0xA6 .two = 2 := by decide

/-! ## Generator, draw, capacity (95_test_vectors.md 2.3 to 2.5; 42_order.md R94) -/

theorem test_xs32_seed0 : xs32 (seedState 0) = 0x510C4619 ∧ xs32 0x510C4619 = 0xE02E553E := by decide
theorem test_xs32_seed1 : xs32 1 = 0x00042021 ∧ xs32 0xFFFFFFFF = 0x0003E01F := by decide
theorem test_bounded : bounded 0xFFFFFFFF 8 = 7 ∧ bounded 0x12345678 10000 = 711 ∧
    bounded 0xFFFFFFFF 4294836225 = 4294836224 ∧ bounded 0xFFFFFFFF 1 = 0 := by decide
theorem test_capacity : capacity 110 .one = 41 ∧ capacity 109 .one = 40 ∧ capacity 55 .two = 41 ∧ capacity 54 .two = 40 ∧
    capacity 4294836225 .two = 3221127168 := by decide

/-- 2.7 (b): size = 256, flags 0x0D is depth 1, adaptive, encrypted; a magic that is off by one in its last byte. -/
theorem test_header_fields : headerSize (fun i => [0x53, 0x54, 0x45, 0x47, 0, 0, 1, 0].getD i 0) = 256 ∧
    magicOk (fun i => [0x53, 0x54, 0x45, 0x46].getD i 0) = false ∧ flagsDepth 0x0D = 1 ∧ flagsAdaptive 0x0D = true ∧
    flagsEncrypted 0x0D = true ∧ flagsEncrypted 0x06 = false ∧ flagsReserved 0xF2 = 15 := by decide

/-! ## Commands (95_test_vectors.md 2.6, P1 to P4) -/

/-- P4: NOP after an error leaves STATUS = 0x00000002. -/
theorem test_nop_clears_error : runs .nop (after .scatter idle) (fun t => t.statusWord = 2) = true := by decide

/-- P1 and 2.6: IDENT over 4 × 2, PRNG kept. -/
theorem test_ident : runs .ident p1 (fun t => t.statusWord = 0xA ∧ t.ord = orderOf [0, 1, 2, 3, 4, 5, 6, 7] ∧
    t.prng = 0) = true := by decide

/-- 2.6: the 4 × 2, SEED 0xDEADBEEF line. -/
theorem test_order : runs .order { fourByTwo with seed := 0xDEADBEEF } (fun t => t.statusWord = 0xA ∧
    t.ord = orderOf [7, 0, 6, 1, 5, 4, 3, 2] ∧ t.prng = 0x6254EA5C) = true := by decide +kernel

/-- 2.6: the 0 × 5, SEED 7 line: an empty order, PRNG = SEED. -/
theorem test_order_empty : runs .order { idle with height := 5, seed := 7 } (fun t => t.statusWord = 0xA ∧
    t.ord = [] ∧ t.prng = 7) = true := by decide

/-- P1: the image after SCATTER at one bit per channel. -/
theorem test_scatter_p1 : runs .scatter (after .ident p1) (fun t => t.statusWord = 0xA ∧ t.resLen = 2 ∧ t.beats = 16 ∧
    t.img = bytesAt [0x11, 0x10, 0x13, 0x12, 0x14, 0x15, 0x16, 0x17, 0x18, 0x18, 0x1B, 0x1B, 0x1D, 0x1D, 0x1E, 0x1E,
      0x20, 0x21, 0x22, 0x23, 0x24, 0x25, 0x26, 0x27]) = true := by decide +kernel

/-- P2: the image after SCATTER at two bits per channel along a shuffled order. -/
theorem test_scatter_p2 : runs .scatter p2 (fun t => t.statusWord = 0xA ∧ t.resLen = 3 ∧ t.beats = 12 ∧
    t.img = p2Gather.img) = true := by decide +kernel

/-- P2: GATHERN returns C9 1E 70. -/
theorem test_gathern_p2 : runs .gathern p2Gather (fun t => t.statusWord = 0xA ∧ t.resLen = 3 ∧ t.beats = 12 ∧
    t.pay = bytesAt [0xC9, 0x1E, 0x70]) = true := by decide +kernel

/-- 2.7 (c): the smallest framed payload, cap = 41. -/
theorem test_gather_bare_header : runs .gather (framed (header 0)) (fun t => t.statusWord = 0xA ∧ t.resLen = 41 ∧
    t.beats = 164 ∧ t.hdrSize = 0 ∧ t.hdrFlags = 2 ∧ t.pay = bytesAt (header 0)) = true := by decide +kernel

/-- P3 (c): a size that does not fit is InsufficientBits, with HDR_SIZE recorded. -/
theorem test_gather_size_too_large : runs .gather (framed (header 8)) (fun t => t.statusWord = 0x40E ∧ t.resLen = 41 ∧
    t.beats = 164 ∧ t.hdrSize = 8 ∧ t.hdrFlags = 2) = true := by decide +kernel

/-- P4: the error codes and their order from reset. -/
theorem test_error_priority : runs .scatter idle (fun t => t.statusWord = 0x106) = true ∧
    runs .scatter { idle with bpc := 1 } (fun t => t.statusWord = 0x506) = true ∧
    runs .scatter { p2 with payLen := 7 } (fun t => t.statusWord = 0x20E) = true ∧
    runs .order { idle with width := 200, height := 200 } (fun t => t.statusWord = 0x106) = true := by decide

/-- 2.9: an illegal word with BPC = 3 and a valid order: InvalidCommand before everything. -/
theorem test_illegal_word : (match transact (.regWrite 0x14 32 0x103) { p2 with bpc := 3 } with
    | .next t => t.statusWord
    | _ => 0) = 0x60E := by decide

/-! ## Registers and host notation (95_test_vectors.md 2.8; 30_encoding.md R66) -/

/-- WIDTH keeps 16 bits, CTRL keeps 2, and CAPACITY of an illegal depth reads 0. -/
theorem test_register_writes : (match Sys2Proof.core.run 6 { idle with script :=
      [wr 0x00 0xFFFFFFFF, wr 0x04 0x00010008, wr 0x08 8, rd 0x04, rd 0x1C, rd 0x00] } with
    | .next t => t.readback
    | _ => []) = [.reg 0x00 3, .reg 0x1C 0, .reg 0x04 8] := by decide

/-- A write of the same HEIGHT still clears ORD_VALID. -/
theorem test_height_write_clears_ordValid : (match transact (wr 0x08 2) p2 with
    | .next t => t.ordValid
    | _ => true) = false := by decide

/-- The reset state lists no memory and no order, and its memories are canonical. -/
theorem test_reset_memories : State.reset.img.wf = true ∧ State.reset.pay.wf = true ∧ State.reset.ord = [] := by decide

/-- 42_order.md R94: SEED for the password "key" of P5 is the last four bytes of the digest, big-endian. -/
theorem test_seedOfDigest : seedOfDigest (List.replicate 28 0x5A ++ [0xF8, 0x26, 0xB6, 0x83]) = 0xF826B683 := by decide

/-! ## Witnesses: the hypotheses of each statement can be met -/

theorem fourByTwo_idle : fourByTwo.busy = false := rfl
theorem p2_idle : p2.busy = false := rfl

theorem orderReady_p2 : p2.OrderReady := ⟨by decide, by decide, by decide +kernel⟩

theorem orderReady_framed (bs : List Nat) : (framed bs).OrderReady := by
  refine ⟨?_, ?_, ?_⟩
  · show 55 * 1 ≤ 16383 + 1
    decide
  · show 55 * 1 ≤ (identityOrder 55).length
    decide
  · show List.Perm (((identityOrder 55).take 55).map BitVec.toNat) (List.range 55)
    decide +kernel

/-- `Memory.Below` as a computation, for concrete memories. -/
theorem below_of_all {m : Memory} {d : Nat} (h : m.all (fun c => decide (c.1 < d)) = true) : m.Below d := by
  intro c hc
  simpa using List.all_eq_true.mp h c hc

theorem inv_p2 : p2.Inv where
  idle := rfl
  orderGuarded := fun _ => orderReady_p2
  errShowsCode := by decide
  codeLegal := by decide
  errIsDone := by decide
  ordFits := by decide
  imgWf := by decide
  imgFits := below_of_all (by decide)
  payWf := by decide
  payFits := below_of_all (by decide)
  resLenFits := by decide
  beatsFits := by decide

/-- A reachable state whose geometry exceeds MAX_PIXELS by one: 16385 × 1. -/
def tooLarge : State := { idle with bpc := 1, width := 16385, height := 1 }

theorem inv_tooLarge : tooLarge.Inv where
  idle := rfl
  orderGuarded := fun h => absurd h (by decide)
  errShowsCode := by decide
  codeLegal := by decide
  errIsDone := by decide
  ordFits := by decide
  imgWf := by decide
  imgFits := below_of_all (by decide)
  payWf := by decide
  payFits := below_of_all (by decide)
  resLenFits := by decide
  beatsFits := by decide

theorem witness_EachCommandHasExactlyOneWord : decode 3 = .ok .scatter ∧
    (⟨0xFFFFFFFF, 3, .scatter⟩ : CommandRow) ∈ commandTable := by decide

theorem witness_IllegalWords : decode 6 = .error .reservedOpcode ∧ decode 0x100 = .error .zeroFieldSet := by decide

theorem witness_StepRunsTheDecodedCommand : (∃ s : State, s.script = .regWrite 0x14 32 5 :: [] ∧ decode 5 = .ok .gathern) ∧
    decodeTableWord 32 3 = some .scatter ∧ idle.script = [] :=
  ⟨⟨{ idle with script := [.regWrite 0x14 32 5] }, rfl, by decide⟩, by decide, rfl⟩

theorem witness_ResetClears : idle.busy = false ∧ running.busy = true := by decide

theorem witness_InvariantKeptByEveryStep :
    State.Inv p2 ∧ ∃ s' : State, step p2 = .next s' := ⟨inv_p2, p2, rfl⟩

/-- A step that runs a command from a state with the invariant. -/
theorem witness_InvariantKeptByACommand : State.Inv { p2 with script := [cmd .scatter] } ∧
    ∃ s', step { p2 with script := [cmd .scatter] } = .next s' :=
  ⟨⟨inv_p2.1, inv_p2.2, inv_p2.3, inv_p2.4, inv_p2.5, inv_p2.6, inv_p2.7, inv_p2.8, inv_p2.9, inv_p2.10, inv_p2.11,
    inv_p2.12⟩, after .scatter p2, exec_after .scatter p2_idle⟩

theorem witness_StepTakesOneAction : ∃ s s' : State, step s = .next s' ∧ s.busy = false ∧ s.script = [rd 0x18] :=
  ⟨{ idle with script := [rd 0x18] }, _, rfl, rfl, rfl⟩

theorem witness_RegisterReadsAndWrites : p2.busy = false ∧ (0x3C : Nat) % 4 = 0 ∧ (0x3C : Nat) < 0x40 := by decide

theorem witness_CapacityRegisterNeverWraps :
    Depth.ofField ({ idle with bpc := 2, width := 65535, height := 65535 } : State).bpc = some .two ∧
    Depth.ofField p1.bpc = some .one := by decide

theorem witness_BusyUnitRefuses : running.busy = true ∧ rd 0x1C ≠ .platformReset ∧ rd 0x1C ≠ .regRead 0x18 32 := by decide

/-- Each clause at a boundary: a width, an alignment, and the first offset outside the window. -/
theorem witness_MalformedRegisterAccesses : (31 : Nat) ≠ 32 ∧ (33 : Nat) ≠ 32 ∧ (0x3D : Nat) % 4 ≠ 0 ∧
    (0x40 : Nat) % 4 = 0 ∧ 0x40 ≤ (0x40 : Nat) := by decide

/-- The last address inside each space and the first outside, at MAX_PIXELS = 16384. -/
theorem witness_HostMemoryAccesses : idle.busy = false ∧ 49151 < idle.imgDepth ∧ 12287 < idle.payDepth ∧
    16383 < idle.ordDepth ∧ 3 * idle.maxPixels ≤ 49152 ∧ 3 * idle.maxPixels / 4 ≤ 12288 ∧ idle.maxPixels ≤ 16384 := by
  decide

theorem witness_NopCompletes : idle.busy = false ∧ (after .scatter idle).busy = false := by decide

theorem witness_IllegalWordEnds : idle.busy = false ∧ decode 0x103 = .error .zeroFieldSet ∧
    decode 6 = .error .reservedOpcode := by decide

/-- Both clauses at their boundary: N = MAX_PIXELS and N = MAX_PIXELS + 1. -/
theorem witness_IdentAndOrder : ({ idle with width := 128, height := 128 } : State).busy = false ∧
    ({ idle with width := 128, height := 128 } : State).pixels = ({ idle with width := 128, height := 128 } : State).maxPixels ∧
    tooLarge.busy = false ∧ tooLarge.pixels = tooLarge.maxPixels + 1 := by decide

/-- PAY_LEN = cap, and a group, a visited and an unvisited address of P2. -/
theorem witness_Scatter : p2.busy = false ∧ Depth.ofField p2.bpc = some .two ∧ p2.ordValid = true ∧ p2.OrderReady ∧
    ({ p2 with payLen := 6 } : State).payLen.toNat = capacity p2.pixels .two ∧ 11 < 8 * p2.payLen.toNat / Depth.two.bits ∧
    ∀ g, g < 8 * p2.payLen.toNat / Depth.two.bits → p2.walkAddr g ≠ 0 :=
  ⟨rfl, rfl, rfl, orderReady_p2, by decide, by decide, by decide +kernel⟩

theorem witness_Gathern : p2Gather.busy = false ∧ Depth.ofField p2Gather.bpc = some .two ∧ p2Gather.ordValid = true ∧
    ({ p2Gather with payLen := 6 } : State).payLen.toNat = capacity p2Gather.pixels .two := by decide

/-- A framed payload in the image, with 41 + size = cap. -/
theorem witness_Gather : (framed (header 0)).busy = false ∧ Depth.ofField (framed (header 0)).bpc = some .two ∧
    (framed (header 0)).ordValid = true ∧ 41 + 0 = capacity (framed (header 0)).pixels .two ∧
    (framed (header 0)).gatherByte .two 0 = 0x53 ∧ (framed (header 0)).gatherByte .two 1 = 0x54 ∧
    (framed (header 0)).gatherByte .two 2 = 0x45 ∧ (framed (header 0)).gatherByte .two 3 = 0x47 ∧
    0 = ((framed (header 0)).gatherByte .two 4).toNat * 2 ^ 24 + ((framed (header 0)).gatherByte .two 5).toNat * 2 ^ 16 +
      ((framed (header 0)).gatherByte .two 6).toNat * 2 ^ 8 + ((framed (header 0)).gatherByte .two 7).toNat := by
  decide +kernel

theorem witness_DataCommandsCheck : idle.bpc = 0 ∧ ({ p2 with bpc := 3 } : State).bpc = 3 ∧
    ({ idle with bpc := 1 } : State).ordValid = false ∧ ({ idle with bpc := 2 } : State).ordValid = false := by decide

/-- cap + 1 bytes asked for; a capacity of 40. -/
theorem witness_TooSmallImage : Depth.ofField p2.bpc = some .two ∧ p2.ordValid = true ∧
    ({ p2 with payLen := 7 } : State).payLen.toNat = capacity p2.pixels .two + 1 ∧
    capacity ({ framed [] with width := 54 } : State).pixels .two = 40 := by decide

/-- The magic fails in its last byte; the size is one too large. -/
theorem witness_FailedGather : 41 ≤ capacity (framed []).pixels .two ∧
    (framed ([0x53, 0x54, 0x45, 0x46] ++ List.replicate 37 0)).gatherByte .two 3 ≠ 0x47 ∧
    (framed (header 1)).gatherByte .two 0 = 0x53 ∧ (framed (header 1)).gatherByte .two 1 = 0x54 ∧
    (framed (header 1)).gatherByte .two 2 = 0x45 ∧ (framed (header 1)).gatherByte .two 3 = 0x47 ∧
    1 = ((framed (header 1)).gatherByte .two 4).toNat * 2 ^ 24 + ((framed (header 1)).gatherByte .two 5).toNat * 2 ^ 16 +
      ((framed (header 1)).gatherByte .two 6).toNat * 2 ^ 8 + ((framed (header 1)).gatherByte .two 7).toNat ∧
    capacity (framed (header 1)).pixels .two < 41 + 1 := by decide +kernel

theorem witness_FailedCommands : ∃ t, exec .scatter idle = .next t ∧ t.err = true :=
  ⟨_, exec_after .scatter rfl, by decide⟩

/-- A GATHER that fails after its header was gathered. -/
theorem witness_FailedCommands_gather : ∃ t, exec .gather (framed (header 8)) = .next t ∧ t.err = true :=
  ⟨_, exec_after .gather rfl, by decide +kernel⟩

/-- Each code from a command that raises it: 1 twice, 2, 3, 4, 5. -/
theorem witness_ErrorsComeOnly : (after .scatter idle).errcode = 1 ∧ (after .order tooLarge).errcode = 1 ∧
    (after .scatter { p2 with payLen := 7 }).errcode = 2 ∧
    (after .gather (framed ([0x53, 0x54, 0x45, 0x46] ++ List.replicate 37 0))).errcode = 3 ∧
    (after .gather (framed (header 1))).errcode = 4 ∧ (after .gathern { p2 with payLen := 7 }).errcode = 4 ∧
    (after .gather { idle with bpc := 2 }).errcode = 5 ∧ exec .gather idle = .next (after .gather idle) :=
  ⟨by decide, by decide, by decide, by decide +kernel, by decide +kernel, by decide, by decide, exec_after .gather rfl⟩

theorem witness_DataCommandAfterFailedOrder : tooLarge.Inv ∧ tooLarge.maxPixels < tooLarge.pixels ∧
    (∃ t, exec .order tooLarge = .next t) ∧ (tooLarge.bpc = 1 ∨ tooLarge.bpc = 2) ∧
    ({ tooLarge with bpc := 3 } : State).bpc = 3 :=
  ⟨inv_tooLarge, by decide, ⟨_, exec_after .order rfl⟩, by decide, by decide⟩

theorem witness_EveryCommandCompletes : p2.busy = false := rfl

theorem witness_EachMemoryHasItsOnlyWriters : ∃ t, exec .scatter p2 = .next t ∧ Instr.scatter ≠ .order :=
  ⟨_, exec_after .scatter p2_idle, by decide⟩

theorem witness_OrdValidIsSet : ∃ s', step { fourByTwo with script := [cmd .ident] } = .next s' ∧
    fourByTwo.ordValid = false ∧ s'.ordValid = true := ⟨after .ident fourByTwo, exec_after .ident fourByTwo_idle, rfl, by decide⟩

theorem witness_OrdValidIsCleared : ∃ s', step { p2 with script := [wr 0x04 4] } = .next s' ∧ p2.ordValid = true ∧
    s'.ordValid = false := ⟨_, rfl, rfl, rfl⟩

theorem witness_BeatsCount : p2.Inv ∧ (∃ t, exec .scatter p2 = .next t) ∧ Depth.ofField p2.bpc = some .two ∧
    tooLarge.Inv ∧ Depth.ofField (3 : BitVec 2) = none :=
  ⟨inv_p2, ⟨_, exec_after .scatter p2_idle⟩, rfl, inv_tooLarge, by decide⟩

theorem witness_SeedState : (0 : Word) ≠ 0x9E3779B9 ∧ seedState 0 = seedState 0x9E3779B9 ∧ (1 : Word) ≠ 0 := by decide

theorem witness_BoundedDraw : 1 ≤ 2 ^ 32 ∧ bounded 0xFFFFFFFF (2 ^ 32) < 2 ^ 32 ∧ bounded 0xFFFFFFFF 1 < 1 := by decide

theorem witness_SelectedOrder : ∃ t, exec .ident fourByTwo = .next t ∧ t.err = false ∧ 7 < fourByTwo.pixels :=
  ⟨_, exec_after .ident fourByTwo_idle, by decide, by decide⟩

/-- 4 × 2 with SEED 0 and 2 × 4 with SEED 0x9E3779B9 on another instance. -/
theorem witness_OrderDepends : ∃ t s' t', fourByTwo.pixels = t.pixels ∧ seedState fourByTwo.seed = seedState t.seed ∧
    exec .order fourByTwo = .next s' ∧ exec .order t = .next t' ∧ s'.err = false ∧ t'.err = false :=
  ⟨{ idle with width := 2, height := 4, seed := 0x9E3779B9, pixelLimit := 7 }, _, _, by decide, by decide,
    exec_after .order fourByTwo_idle, exec_after .order rfl, by decide, by decide⟩

theorem witness_WalkAndUnitAddresses : p2.OrderReady ∧ 23 < 3 * p2.pixels ∧ p2.ord[23 / 3]? = some 2 ∧
    6 ≤ capacity p2.pixels .two := ⟨orderReady_p2, by decide, by decide, by decide⟩

theorem witness_ScatterBeatsCommute : p2.OrderReady ∧ [0xC9, 0x1E, 0x70].length ≤ capacity p2.pixels .two ∧
    List.Perm (List.range 12).reverse (List.range (8 * [0xC9, 0x1E, 0x70].length / Depth.two.bits)) :=
  ⟨orderReady_p2, by decide, by decide +kernel⟩

/-- Two states that agree on the twelve channels of the three bytes and differ at address 0. -/
theorem witness_GatherReadsOnly : ∃ u s', p2Gather.SameOperands u ∧ p2Gather.SameOrder u ∧ u.busy = false ∧
    exec .gathern p2Gather = .next s' ∧ s'.err = false ∧ u.imgByte 0 ≠ p2Gather.imgByte 0 ∧
    ∀ g, g < s'.resLen.toNat * (8 / Depth.two.bits) → u.imgByte (p2Gather.walkAddr g) = p2Gather.imgByte (p2Gather.walkAddr g) :=
  ⟨{ p2Gather with img := p2Gather.img.store 0 0x5A }, _, ⟨rfl, rfl, rfl, rfl, rfl⟩, ⟨rfl, rfl, rfl⟩, rfl,
    exec_after .gathern rfl, by decide +kernel, by decide +kernel, by decide +kernel⟩

/-- P2: SCATTER of three bytes, then GATHERN of six. -/
theorem witness_GathernReturns : ∃ t u, p2.OrderReady ∧ exec .scatter p2 = .next t ∧ t.err = false ∧ u.busy = false ∧
    u.bpc = t.bpc ∧ u.width = t.width ∧ u.height = t.height ∧ u.ordValid = t.ordValid ∧ u.ord = t.ord ∧ t.SameImage u ∧
    u.payLen.toNat = capacity p2.pixels .two :=
  ⟨after .scatter p2, { after .scatter p2 with payLen := 6 }, orderReady_p2, exec_after .scatter p2_idle, by decide +kernel,
    by decide +kernel, rfl, rfl, rfl, rfl, rfl, fun _ => rfl, by decide⟩

/-- A bare header scattered at exactly the capacity. -/
theorem witness_GatherReturns : ∃ t, (framed (header 0)).OrderReady ∧ magicOk (framed (header 0)).payByte = true ∧
    (framed (header 0)).payLen.toNat = 41 + (headerSize (framed (header 0)).payByte).toNat ∧
    exec .scatter (framed (header 0)) = .next t ∧ t.err = false ∧ t.busy = false ∧ t.SameImage t :=
  ⟨_, orderReady_framed _, by decide +kernel, by decide +kernel, exec_after .scatter rfl, by decide +kernel,
    by decide +kernel, fun _ => rfl⟩

/-- The second instance of P2, with MAX_PIXELS = 8: ordered, and given the first one's image and settings. -/
def secondOrdered : State := after .order { fourByTwo with pixelLimit := 7 }

theorem witness_AnotherInstance : ∃ s1 s2 s3 u2 : State,
    fourByTwo.pixels = ({ fourByTwo with pixelLimit := 7 } : State).pixels ∧ exec .order fourByTwo = .next s1 ∧ s1.err = false ∧
    exec .order { fourByTwo with pixelLimit := 7 } = .next secondOrdered ∧ secondOrdered.err = false ∧
    s2.width = s1.width ∧ s2.height = s1.height ∧ s2.ordValid = s1.ordValid ∧ s2.ord = s1.ord ∧
    exec .scatter s2 = .next s3 ∧ s3.err = false ∧ u2.busy = false ∧ u2.width = secondOrdered.width ∧
    u2.height = secondOrdered.height ∧ u2.ordValid = secondOrdered.ordValid ∧ u2.ord = secondOrdered.ord ∧
    u2.bpc = s2.bpc ∧ u2.payLen = s2.payLen ∧ ∀ a, a < 24 → u2.imgByte a = s3.imgByte a :=
  ⟨after .order fourByTwo, p2, after .scatter p2,
    { secondOrdered with bpc := 2, payLen := 3, img := p2Gather.img }, by decide, exec_after .order fourByTwo_idle,
    by decide +kernel,
    exec_after .order rfl, by decide +kernel, by decide +kernel, by decide +kernel, by decide +kernel, by decide +kernel,
    exec_after .scatter p2_idle, by decide +kernel, by decide +kernel, rfl, rfl, rfl, rfl, rfl, rfl, by decide +kernel⟩

/-- 55 × 1 pixels after ORDER on an instance of a given size. -/
def strip (limit : Config.PixelLimit) : State := { idle with width := 55, height := 1, pixelLimit := limit }

/-- The framed clause: a bare header over a shuffled order of 55 pixels, MAX_PIXELS 16384 and 55. -/
theorem witness_AnotherInstance_framed : ∃ s2 s3 u2 : State, exec .order (strip 16383) = .next (after .order (strip 16383)) ∧
    (after .order (strip 16383)).err = false ∧ (after .order (strip 54)).err = false ∧
    s2.width = (after .order (strip 16383)).width ∧ s2.height = (after .order (strip 16383)).height ∧
    s2.ordValid = (after .order (strip 16383)).ordValid ∧ s2.ord = (after .order (strip 16383)).ord ∧
    exec .scatter s2 = .next s3 ∧ s3.err = false ∧ u2.ord = (after .order (strip 54)).ord ∧ u2.payLen = s2.payLen ∧
    (∀ a, a < 165 → u2.imgByte a = s3.imgByte a) ∧ magicOk s2.payByte = true ∧
    s2.payLen.toNat = 41 + (headerSize s2.payByte).toNat :=
  let s2 : State := { after .order (strip 16383) with
    bpc := 2, payLen := 41, pay := bytesAt (header 0), img := (framed []).img }
  ⟨s2, after .scatter s2, { after .order (strip 54) with bpc := 2, payLen := 41, img := (after .scatter s2).img },
    exec_after .order rfl, by decide +kernel, by decide +kernel, rfl, rfl, rfl, rfl, exec_after .scatter (by decide +kernel),
    by decide +kernel, rfl, rfl, by decide +kernel, by decide +kernel, by decide +kernel⟩

theorem witness_BitsAndBytes : (bitsOf [0xC9, 0x1E]).length % 8 = 0 ∧ 1 < [(0xC9 : Byte), 0x1E].length ∧ [(0xC9 : Byte), 0x1E][1]? = some 0x1E := by decide

theorem witness_Insert : (1 : Byte).toNat < 2 ^ Depth.one.bits ∧ (3 : Byte).toNat < 2 ^ Depth.two.bits := by decide

end Sys2Proof.Tests
end

section
/-! What a command and a host action leave unchanged: the surroundings of the unit (the script, the values read, the
parameter) and an idle unit's BUSY. -/

namespace Sys2Proof.Machine

/-! ## Commands -/

@[simp] theorem Ended.finish_busy (e : Ended) : e.finish.busy = false := by cases e <;> rfl

/-- The epilogue touches only STATUS. -/
theorem Ended.finish_sameSurroundings (e : Ended) : e.last.SameSurroundings e.finish := by
  cases e with
  | normally s => exact s.complete_sameSurroundings
  | raised k s => exact (s.raiseError_sameSurroundings k).trans (State.complete_sameSurroundings _)

theorem bodyOf_last_sameSurroundings (i : Instr) (s : State) : s.SameSurroundings (bodyOf i s).last := by
  rcases bodyOf_cases i s with ⟨k, e⟩ | ⟨_, e⟩ | ⟨_, _, e⟩ | ⟨_, _, e⟩ |
    ⟨d, _, _, ⟨_, _, e⟩ | ⟨_, _, e⟩ | ⟨_, _, e | e | ⟨n, _, e⟩⟩⟩ <;> rw [e]
  · exact .refl s
  · exact .refl s
  · exact s.selectOrder_sameSurroundings _
  · exact (s.recordPrng_sameSurroundings _).trans (State.selectOrder_sameSurroundings _ _)
  · exact s.scatterFrom_sameSurroundings d _
  · exact s.gatherTo_sameSurroundings d _ _
  · exact s.gatherTo_sameSurroundings d _ _
  · exact (s.gatherTo_sameSurroundings d _ _).trans (State.recordHeader_sameSurroundings _)
  · exact ((s.gatherTo_sameSurroundings d _ _).trans (State.recordHeader_sameSurroundings _)).trans
      (State.gatherTo_sameSurroundings _ d _ _)

/-- A command from acceptance to completion. -/
theorem bodyOf_finish_sameSurroundings (i : Instr) (s : State) : s.SameSurroundings (bodyOf i s.accept).finish :=
  (s.accept_sameSurroundings.trans (bodyOf_last_sameSurroundings i s.accept)).trans (Ended.finish_sameSurroundings _)

theorem runWord_sameSurroundings {w : Word} {s t : State} (h : runWord w s = .next t) : s.SameSurroundings t := by
  obtain ⟨_, ⟨i, _, rfl⟩ | rfl⟩ := runWord_next h
  · exact bodyOf_finish_sameSurroundings i s
  · exact s.accept_sameSurroundings.trans (Ended.finish_sameSurroundings (.raised .invalidCommand s.accept))

theorem runWord_next_busy {w : Word} {s t : State} (h : runWord w s = .next t) : t.busy = false := by
  obtain ⟨_, ⟨i, _, rfl⟩ | rfl⟩ := runWord_next h
  · exact Ended.finish_busy _
  · rfl

/-! ## Host actions -/

theorem State.regWrite_sameSurroundings (s : State) (r : Reg) (v : Word) : s.SameSurroundings (s.regWrite r v) := by
  cases r <;> exact ⟨rfl, rfl, rfl, rfl⟩

@[simp] theorem State.regWrite_busy (s : State) (r : Reg) (v : Word) : (s.regWrite r v).busy = s.busy := by
  cases r <;> rfl

/-- What every host action keeps: the actions that wait behind it, the parameter, all but at most one new value read,
an idle unit idle. -/
def State.KeptByAction (s t : State) : Prop :=
  t.script = s.script ∧ t.pixelLimit = s.pixelLimit ∧
    (t.readback = s.readback ∨ ∃ r, t.readback = r :: s.readback) ∧ (s.busy = false → t.busy = false)

theorem State.SameSurroundings.keptByAction {s t : State} (h : s.SameSurroundings t)
    (hb : s.busy = false → t.busy = false) : s.KeptByAction t := by
  obtain ⟨hscript, hreadback, hlimit, _⟩ := h
  exact ⟨hscript, hlimit, .inl hreadback, hb⟩

theorem transact_keptByAction {act : BusAction} {s t : State} (h : transact act s = .next t) : s.KeptByAction t := by
  rcases transact_next h with ⟨r, _, rfl⟩ | ⟨o, v, _, _, _, rfl⟩ | ⟨v, _, _, hw⟩ | ⟨a, v, _, _, _, rfl⟩ |
    ⟨a, v, _, _, _, rfl⟩ | rfl | ⟨_, rfl⟩
  · exact ⟨rfl, rfl, .inr ⟨r, rfl⟩, id⟩
  · exact (s.regWrite_sameSurroundings _ v).keptByAction (by simp)
  · exact (runWord_sameSurroundings hw).keptByAction fun _ => runWord_next_busy hw
  · exact ⟨rfl, rfl, .inl rfl, id⟩
  · exact ⟨rfl, rfl, .inl rfl, id⟩
  · exact ⟨rfl, rfl, .inl rfl, id⟩
  · exact ⟨rfl, rfl, .inl rfl, fun _ => rfl⟩

/-- Settles O8: by what a step can do, either nothing waited and nothing changed, or one action was taken off the script
and performed on the rest. -/
theorem stepTakesOneActionAndKeepsTheParameter : Obligations.StepTakesOneActionAndKeepsTheParameter := by
  intro s s' h
  rcases step_next h with ⟨hnil, rfl⟩ | ⟨act, rest, hcons, hact⟩
  · exact ⟨by simp [hnil], rfl, .inl rfl, id⟩
  · obtain ⟨hscript, hkept⟩ := transact_keptByAction hact
    exact ⟨by simpa [hcons] using hscript, hkept⟩

end Sys2Proof.Machine
end

section
/-! Order tables that are a permutation: what IDENT and ORDER leave (42_order.md R93, R95, R96), and that the walk over one
stays inside the unit's spaces (20_memory.md R47). -/

namespace Sys2Proof.Machine

/-! ## The tables of IDENT and ORDER -/

/-- The product of a 32-bit number with m has less than m above its low 32 bits. -/
theorem bounded_lt (s : Word) {m : Nat} (hm : 0 < m) : bounded s m < m :=
  Nat.div_lt_of_lt_mul (Nat.mul_lt_mul_of_pos_right s.isLt hm)

/-- The loop of R95 rearranges the table: each swap is of two entries inside it. -/
theorem shuffleFrom_perm (i : Nat) (s : Word) (l : List Word) (hi : i ≤ l.length - 1) :
    (shuffleFrom i s l).2.Perm l := by
  induction i generalizing s l with
  | zero => exact .refl l
  | succ i ih =>
    have hj := bounded_lt (xs32 s) (show 0 < i + 1 + 1 by omega)
    have hswap : (swapEntries l (i + 1) (bounded (xs32 s) (i + 1 + 1))).Perm l :=
      swapEntries_perm l (by omega) (by omega)
    exact (ih _ _ (by rw [swapEntries_length]; omega)).trans hswap

theorem shuffledOrder_perm (n : Nat) (seed : Word) : (shuffledOrder n seed).2.Perm (identityOrder n) :=
  shuffleFrom_perm _ _ _ (by simp)

/-- ORDER's table as numbers (42_order.md R96 P1). -/
theorem shuffledOrder_toNat_perm {n : Nat} (hn : n ≤ 2 ^ 32) (seed : Word) :
    ((shuffledOrder n seed).2.map BitVec.toNat).Perm (List.range n) :=
  identityOrder_toNat hn ▸ (shuffledOrder_perm n seed).map BitVec.toNat

/-- Selecting a permutation of [0, N) makes the order table ready. -/
theorem State.selectOrder_orderReady {s : State} {l : List Word} (hfits : s.pixels ≤ s.maxPixels)
    (hperm : (l.map BitVec.toNat).Perm (List.range s.pixels)) : (s.selectOrder l).OrderReady := by
  have hlen : l.length = s.pixels := by simpa using hperm.length_eq
  refine ⟨hfits, by simp [hlen], ?_⟩
  simpa [← hlen] using hlen ▸ hperm

/-- The whole table still has at most ORD_DEPTH entries. -/
theorem State.selectOrder_ordFits {s : State} {l : List Word} (hl : l.length ≤ s.ordDepth)
    (hord : s.ord.length ≤ s.ordDepth) : (s.selectOrder l).ord.length ≤ s.ordDepth := by
  simp only [State.selectOrder_ord, List.length_append, List.length_drop]
  omega

/-! ## The walk over a ready table -/

/-- A defined entry of a ready table is a pixel. -/
theorem State.OrderReady.ordEntry_lt {s : State} (h : s.OrderReady) {k : Nat} (hk : k < s.pixels) :
    (s.ordEntry k).toNat < s.pixels := by
  obtain ⟨_, hlen, hperm⟩ := h
  have hk' : k < s.ord.length := by omega
  have hmem : (s.ordEntry k).toNat ∈ (s.ord.take s.pixels).map BitVec.toNat := by
    refine List.mem_map_of_mem (List.mem_take_iff_getElem.mpr ⟨k, by omega, ?_⟩)
    simp [State.ordEntry, hk']
  exact List.mem_range.mp (hperm.mem_iff.mp hmem)

/-- The channel of a group of the image lies in the image. -/
theorem State.OrderReady.walkAddr_lt {s : State} (h : s.OrderReady) {g : Nat} (hg : g < 3 * s.pixels) :
    s.walkAddr g < 3 * s.pixels := by
  have := h.ordEntry_lt (show g / 3 < s.pixels by omega)
  unfold State.walkAddr chanAddr
  omega

/-- The image lies in IMG. -/
theorem State.OrderReady.pixels_le_imgDepth {s : State} (h : s.OrderReady) : 3 * s.pixels ≤ s.imgDepth :=
  Nat.mul_le_mul_left 3 h.1

/-- What fits the image fits PAY: its largest capacity is that of MAX_PIXELS at two bits per channel. -/
theorem State.OrderReady.le_payDepth {s : State} (h : s.OrderReady) {d : Depth} {n : Nat}
    (hn : n ≤ capacity s.pixels d) : n ≤ s.payDepth := by
  have hp := h.1
  unfold State.payDepth
  rcases d.bits_cases with ⟨hb, _⟩ | ⟨hb, _⟩ <;> rw [capacity, hb] at hn <;> omega

end Sys2Proof.Machine
end

section
/-! The result registers count the bytes a command moved (10_state.md R21, R22). -/

namespace Sys2Proof.Machine

/-- RES_LEN counts n bytes and BEATS their groups at depth d (10_state.md R21, R22). -/
def State.CountsBytes (s : State) (d : Depth) (n : Nat) : Prop :=
  s.resLen = BitVec.ofNat 32 n ∧ s.beats = BitVec.ofNat 32 (n * d.groupsPerByte)

theorem State.scatterFrom_countsBytes (s : State) (d : Depth) (n : Nat) : (s.scatterFrom d n).CountsBytes d n :=
  ⟨rfl, by rw [State.scatterFrom_beats, groupCount_eq]⟩

theorem State.gatherTo_countsBytes (s : State) (d : Depth) (m n : Nat) :
    (s.gatherTo d m n).CountsBytes d (m + n) := ⟨rfl, rfl⟩

/-- A body that moves no byte keeps the counts; one that does has passed the shared checks, and counts no more bytes than
the capacity. -/
theorem bodyOf_last_counts (i : Instr) (s : State) :
    ((bodyOf i s).last.resLen = s.resLen ∧ (bodyOf i s).last.beats = s.beats) ∨
    ∃ d n, Depth.ofField s.bpc = some d ∧ s.ordValid = true ∧ n ≤ capacity s.pixels d ∧
      (bodyOf i s).last.CountsBytes d n := by
  rcases bodyOf_cases i s with ⟨k, e⟩ | ⟨_, e⟩ | ⟨_, _, e⟩ | ⟨_, _, e⟩ |
    ⟨d, hd, hv, ⟨_, hn, e⟩ | ⟨_, hn, e⟩ | ⟨_, hn, e | e | ⟨n, hn', e⟩⟩⟩ <;> rw [e]
  · exact .inl ⟨rfl, rfl⟩
  · exact .inl ⟨rfl, rfl⟩
  · exact .inl ⟨rfl, rfl⟩
  · exact .inl ⟨rfl, rfl⟩
  · exact .inr ⟨d, _, hd, hv, hn, s.scatterFrom_countsBytes d _⟩
  · exact .inr ⟨d, _, hd, hv, (Nat.zero_add _).symm ▸ hn, s.gatherTo_countsBytes d 0 _⟩
  · exact .inr ⟨d, _, hd, hv, hn, s.gatherTo_countsBytes d 0 hdrLen⟩
  · exact .inr ⟨d, _, hd, hv, hn, s.gatherTo_countsBytes d 0 hdrLen⟩
  · exact .inr ⟨d, _, hd, hv, hn', State.gatherTo_countsBytes _ d hdrLen n⟩

/-- 3 × MAX_PIXELS fits a register (00_scope.md R5). -/
theorem State.imgDepth_lt (s : State) : s.imgDepth < 2 ^ 32 := by
  have := s.maxPixels_lt
  unfold State.imgDepth
  omega

/-- The counts of an image that fits do not wrap: they are the numbers of bytes and of groups, in range. -/
theorem State.CountsBytes.toNat {s t : State} {d : Depth} {n : Nat} (h : t.CountsBytes d n) (ho : s.OrderReady)
    (hn : n ≤ capacity s.pixels d) : t.resLen.toNat = n ∧ t.beats.toNat = n * d.groupsPerByte ∧
      n ≤ s.payDepth ∧ n * d.groupsPerByte ≤ 3 * s.pixels := by
  obtain ⟨hres, hbeats⟩ := h
  have hgroups := (le_capacity_iff _ _ _).mp hn
  have himg := ho.pixels_le_imgDepth
  have hdepth := s.imgDepth_lt
  have hbytes : n ≤ n * d.groupsPerByte := by rcases d.bits_cases with ⟨_, hg⟩ | ⟨_, hg⟩ <;> rw [hg] <;> omega
  refine ⟨?_, ?_, ho.le_payDepth hn, hgroups⟩
  · rw [hres, BitVec.toNat_ofNat, Nat.mod_eq_of_lt (by omega)]
  · rw [hbeats, BitVec.toNat_ofNat, Nat.mod_eq_of_lt (by omega)]

/-- The epilogue keeps the result registers. -/
@[simp] theorem Ended.finish_resLen (e : Ended) : e.finish.resLen = e.last.resLen := by cases e <;> rfl
@[simp] theorem Ended.finish_beats (e : Ended) : e.finish.beats = e.last.beats := by cases e <;> rfl

/-- Settles O36: a command either left RES_LEN and BEATS cleared, as acceptance did, or it counts n bytes at the legal
depth, n at most the capacity. -/
theorem beatsCountTheGroupsMoved : Obligations.BeatsCountTheGroupsMoved := by
  intro i s t hinv hexec
  obtain ⟨_, rfl⟩ := exec_next hexec
  rw [Ended.finish_resLen, Ended.finish_beats]
  rcases bodyOf_last_counts i s.accept with ⟨hres, hbeats⟩ | ⟨d, n, hd, hv, hn, hcounts⟩
  · simp [hres, hbeats]
  · obtain ⟨hres, hbeats, _, hgroups⟩ := hcounts.toNat (hinv.orderGuarded hv) hn
    refine ⟨fun d' hd' => ?_, fun hnone => ?_, hbeats.trans_le hgroups⟩
    · obtain rfl : d = d' := Option.some.inj (hd.symm.trans hd')
      rw [hbeats, hres, Depth.groupsPerByte]
    · exact absurd (hd.symm.trans hnone) (Option.some_ne_none d)

end Sys2Proof.Machine
end

section
/-! The invariant: what a command keeps of ORD, IMG and PAY, how its end reestablishes STATUS and the result registers, and
that every host action keeps it (10_state.md R19, R21, R22, R27; 20_memory.md R47; 60_exceptions.md R140). -/

namespace Sys2Proof.Machine

/-! ## The stored part: ORD, IMG, PAY -/

/-- The invariant's part on ORD, IMG and PAY: it holds also while a command runs. -/
structure State.StoredInv (s : State) : Prop where
  orderGuarded : s.ordValid = true → s.OrderReady
  ordFits : s.ord.length ≤ s.ordDepth
  imgWf : s.img.wf = true
  imgFits : s.img.Below s.imgDepth
  payWf : s.pay.wf = true
  payFits : s.pay.Below s.payDepth

theorem State.Inv.stored {s : State} (h : s.Inv) : s.StoredInv := { h with }

theorem State.StoredInv.accept {s : State} (h : s.StoredInv) : s.accept.StoredInv := { h with }

theorem State.StoredInv.recordHeader {s : State} (h : s.StoredInv) : s.recordHeader.StoredInv := { h with }

theorem State.StoredInv.recordPrng {s : State} (h : s.StoredInv) (v : Word) : (s.recordPrng v).StoredInv := { h with }

theorem State.StoredInv.selectOrder {s : State} (h : s.StoredInv) {l : List Word} (hfits : s.pixels ≤ s.maxPixels)
    (hperm : (l.map BitVec.toNat).Perm (List.range s.pixels)) : (s.selectOrder l).StoredInv :=
  have hlen : l.length = s.pixels := by simpa using hperm.length_eq
  { h with
    orderGuarded := fun _ => State.selectOrder_orderReady hfits hperm
    ordFits := State.selectOrder_ordFits (hlen.trans_le hfits) h.ordFits }

/-- Along a ready order the beats of a payload within the capacity write only inside IMG. -/
theorem State.StoredInv.scatterFrom {s : State} (h : s.StoredInv) (hv : s.ordValid = true) {d : Depth} {n : Nat}
    (hn : n ≤ capacity s.pixels d) : (s.scatterFrom d n).StoredInv :=
  have hready := h.orderGuarded hv
  have hgroups : groupCount n d ≤ 3 * s.pixels := groupCount_eq n d ▸ (le_capacity_iff _ _ _).mp hn
  { h with
    imgWf := scatterBeats_wf s _ d _ h.imgWf
    imgFits := scatterBeats_below s _ d _ h.imgFits fun _ hg =>
      (hready.walkAddr_lt ((List.mem_range.mp hg).trans_le hgroups)).trans_le hready.pixels_le_imgDepth }

/-- A gather of bytes within the capacity writes only inside PAY. -/
theorem State.StoredInv.gatherTo {s : State} (h : s.StoredInv) (hv : s.ordValid = true) {d : Depth} {m n : Nat}
    (hn : m + n ≤ capacity s.pixels d) : (s.gatherTo d m n).StoredInv :=
  { h with
    payWf := Memory.storeBytes_wf _ m h.payWf
    payFits := Memory.storeBytes_below _ h.payFits (by simpa using (h.orderGuarded hv).le_payDepth hn) }

/-- The geometry has at most 65535 × 65535 pixels, so no entry of a table wraps. -/
theorem State.pixels_le_two_pow (s : State) : s.pixels ≤ 2 ^ 32 := s.pixels_lt.trans (by norm_num)

/-- Every way a body can end keeps the stored part. -/
theorem State.StoredInv.bodyOf_last {s : State} (h : s.StoredInv) (i : Instr) : (bodyOf i s).last.StoredInv := by
  rcases bodyOf_cases i s with ⟨k, e⟩ | ⟨_, e⟩ | ⟨_, hp, e⟩ | ⟨_, hp, e⟩ |
    ⟨d, _, hv, ⟨_, hn, e⟩ | ⟨_, hn, e⟩ | ⟨_, hn, e | e | ⟨n, hn', e⟩⟩⟩ <;> rw [e]
  · exact h
  · exact h
  · exact h.selectOrder hp (.of_eq (identityOrder_toNat s.pixels_le_two_pow))
  · exact (h.recordPrng _).selectOrder hp (shuffledOrder_toNat_perm s.pixels_le_two_pow s.seed)
  · exact h.scatterFrom hv hn
  · exact h.gatherTo hv (by simpa using hn)
  · exact h.gatherTo hv (by simpa using hn)
  · exact (h.gatherTo hv (by simpa using hn)).recordHeader
  · exact (h.gatherTo hv (by simpa using hn)).recordHeader.gatherTo hv hn'

/-! ## STATUS and the result registers at a command's end -/

/-- No body touches ERR or ERRCODE: only the epilogue records an error (45_system.md R128). -/
theorem bodyOf_last_status (i : Instr) (s : State) :
    (bodyOf i s).last.err = s.err ∧ (bodyOf i s).last.errcode = s.errcode := by
  rcases bodyOf_cases i s with ⟨k, e⟩ | ⟨_, e⟩ | ⟨_, _, e⟩ | ⟨_, _, e⟩ |
    ⟨d, _, _, ⟨_, _, e⟩ | ⟨_, _, e⟩ | ⟨_, _, e | e | ⟨n, _, e⟩⟩⟩ <;> rw [e] <;> exact ⟨rfl, rfl⟩

/-- "Codes 7 to 15 are never produced", and 0 is no error's code (60_exceptions.md R140). -/
theorem ErrorKind.code_range (k : ErrorKind) : k.code ≠ 0 ∧ k.code.toNat ≤ 6 := by cases k <;> decide

/-- The epilogue sets STATUS consistently. -/
theorem Ended.finish_inv {e : Ended} (hstored : e.last.StoredInv) (herr : e.last.err = false)
    (hcode : e.last.errcode = 0) (hres : e.last.resLen.toNat ≤ e.last.payDepth)
    (hbeats : e.last.beats.toNat ≤ e.last.imgDepth) : e.finish.Inv := by
  cases e with
  | normally s =>
    have herr : s.err = false := herr
    have hcode : s.errcode = 0 := hcode
    exact { hstored with
      idle := rfl
      errShowsCode := by simp [herr, hcode]
      codeLegal := by simp [hcode]
      errIsDone := fun _ => rfl
      resLenFits := hres
      beatsFits := hbeats }
  | raised k s =>
    obtain ⟨hne, hle⟩ := k.code_range
    exact { hstored with
      idle := rfl
      errShowsCode := ⟨fun _ => hne, fun _ => rfl⟩
      codeLegal := hle
      errIsDone := fun _ => rfl
      resLenFits := hres
      beatsFits := hbeats }

/-- The result registers stay in range. -/
theorem bodyOf_last_resultsFit (i : Instr) {s : State} (h : s.Inv) :
    (bodyOf i s.accept).last.resLen.toNat ≤ s.payDepth ∧ (bodyOf i s.accept).last.beats.toNat ≤ s.imgDepth := by
  rcases bodyOf_last_counts i s.accept with ⟨hres, hbeats⟩ | ⟨d, n, _, hv, hn, hcounts⟩
  · simp [hres, hbeats]
  · have hready := h.orderGuarded hv
    obtain ⟨hres, hbeats, hpay, hgroups⟩ := hcounts.toNat hready hn
    exact ⟨hres.trans_le hpay, hbeats.trans_le (hgroups.trans hready.pixels_le_imgDepth)⟩

/-- The depths are the parameter's. -/
theorem State.SameSurroundings.depths {s t : State} (h : s.SameSurroundings t) :
    t.payDepth = s.payDepth ∧ t.imgDepth = s.imgDepth := by
  obtain ⟨_, _, hlimit, _⟩ := h
  simp [State.payDepth, State.imgDepth, State.maxPixels, hlimit]

/-- A command from acceptance to completion keeps the invariant. -/
theorem State.Inv.bodyOf_finish {s : State} (h : s.Inv) (i : Instr) : (bodyOf i s.accept).finish.Inv := by
  obtain ⟨herr, hcode⟩ := bodyOf_last_status i s.accept
  obtain ⟨hres, hbeats⟩ := bodyOf_last_resultsFit i h
  obtain ⟨hpay, himg⟩ := (bodyOf_last_sameSurroundings i s.accept).depths
  exact Ended.finish_inv (h.stored.accept.bodyOf_last i) herr hcode (hres.trans_eq hpay.symm)
    (hbeats.trans_eq himg.symm)

/-- A command word, legal or not, keeps the invariant. -/
theorem State.Inv.runWord {w : Word} {s t : State} (h : s.Inv) (hrun : runWord w s = .next t) : t.Inv := by
  obtain ⟨_, ⟨i, _, rfl⟩ | rfl⟩ := runWord_next hrun
  · exact h.bodyOf_finish i
  · exact Ended.finish_inv (e := .raised .invalidCommand s.accept) h.stored.accept rfl rfl (Nat.zero_le _)
      (Nat.zero_le _)

/-! ## Host actions -/

/-- A register write keeps the invariant: a new geometry clears ORD_VALID (10_state.md R14, R15). -/
theorem State.Inv.regWrite {s : State} (h : s.Inv) (r : Reg) (v : Word) : (s.regWrite r v).Inv := by
  cases r with
  | width | height => exact { h with orderGuarded := fun hv => nomatch hv }
  | _ => exact { h with }

/-- A reset of an idle unit leaves IMG and PAY as they are (70_reset_and_hazards.md R160). -/
theorem State.platformReset_memories {s : State} (h : s.busy = false) :
    s.platformReset.img = s.img ∧ s.platformReset.pay = s.pay ∧ s.platformReset.memEpoch = s.memEpoch := by
  simp [State.platformReset, h]

/-- The reset event keeps the invariant of an idle unit: everything but IMG and PAY is cleared. -/
theorem State.Inv.platformReset {s : State} (h : s.Inv) : s.platformReset.Inv := by
  obtain ⟨himg, hpay, _⟩ := State.platformReset_memories h.idle
  exact
    { idle := rfl
      orderGuarded := fun hv => nomatch hv
      errShowsCode := by simp [State.platformReset]
      codeLegal := Nat.zero_le 6
      errIsDone := fun he => nomatch he
      ordFits := Nat.zero_le _
      imgWf := himg ▸ h.imgWf
      imgFits := himg ▸ h.imgFits
      payWf := hpay ▸ h.payWf
      payFits := hpay ▸ h.payFits
      resLenFits := Nat.zero_le _
      beatsFits := Nat.zero_le _ }

/-- Every host action keeps the invariant. -/
theorem State.Inv.transact {act : BusAction} {s t : State} (h : s.Inv) (hact : transact act s = .next t) : t.Inv := by
  rcases transact_next hact with ⟨r, _, rfl⟩ | ⟨o, v, _, _, _, rfl⟩ | ⟨v, _, _, hw⟩ | ⟨a, v, _, ha, _, rfl⟩ |
    ⟨a, v, _, ha, _, rfl⟩ | rfl | ⟨_, rfl⟩
  · exact { h with }
  · exact h.regWrite _ v
  · exact h.runWord hw
  · exact { h with imgWf := Memory.store_wf a v h.imgWf, imgFits := Memory.store_below v h.imgFits ha }
  · exact { h with payWf := Memory.store_wf a v h.payWf, payFits := Memory.store_below v h.payFits ha }
  · exact h
  · exact h.platformReset

/-- Settles O7: a step takes one host action off the script, which the invariant does not mention, and performs it. -/
theorem invariantKeptByEveryStep : Obligations.InvariantKeptByEveryStep := by
  intro s s' h hstep
  rcases step_next hstep with ⟨_, rfl⟩ | ⟨act, rest, _, hact⟩
  · exact h
  · have hrest : State.Inv { s with script := rest } := { h with }
    exact hrest.transact hact

/-- Settles O6: after reset nothing is listed and every register is 0. -/
theorem invariantHoldsAtReset : Obligations.InvariantHoldsAtReset where
  idle := rfl
  orderGuarded hv := nomatch hv
  errShowsCode := by decide
  codeLegal := by decide
  errIsDone he := nomatch he
  ordFits := Nat.zero_le _
  imgWf := Memory.nil_wf
  imgFits _ hc := nomatch hc
  payWf := Memory.nil_wf
  payFits _ hc := nomatch hc
  resLenFits := Nat.zero_le _
  beatsFits := Nat.zero_le _

end Sys2Proof.Machine
end

section
/-! What each command may write, and what sets and clears ORD_VALID (10_state.md R19, R25 to R29; 20_memory.md R40). -/

namespace Sys2Proof.Machine

/-! ## The only writers -/

/-- What command `i` keeps: everything of which it is not a writer in 20_memory.md R40's table. -/
def State.KeptByCommand (i : Instr) (s t : State) : Prop :=
  s.SameOperands t ∧ s.SameSurroundings t ∧ (i ≠ .scatter → s.SameImage t) ∧
    (i ≠ .gather → i ≠ .gathern → s.SamePayload t) ∧ (i ≠ .ident → i ≠ .order → s.SameOrder t) ∧
    (i ≠ .order → t.prng = s.prng)

theorem State.KeptByCommand.trans {i : Instr} {s t u : State} (h : s.KeptByCommand i t) (k : t.KeptByCommand i u) :
    s.KeptByCommand i u := by
  obtain ⟨hops, hsur, himg, hpay, hord, hprng⟩ := h
  obtain ⟨kops, ksur, kimg, kpay, kord, kprng⟩ := k
  exact ⟨hops.trans kops, hsur.trans ksur, fun a => (himg a).trans (kimg a), fun a b => (hpay a b).trans (kpay a b),
    fun a b => (hord a b).trans (kord a b), fun a => (kprng a).trans (hprng a)⟩

/-- A change of STATUS and the result registers alone is any command's. -/
theorem State.SameButStatus.keptByCommand {s t : State} (h : s.SameButStatus t) (i : Instr) : s.KeptByCommand i t := by
  obtain ⟨hops, hord, hprng, himg, hpay, hsur⟩ := h
  exact ⟨hops, hsur, fun _ => himg, fun _ _ => hpay, fun _ _ => hord, fun _ => hprng⟩

theorem State.SameButStatus.refl (s : State) : s.SameButStatus s :=
  ⟨.refl s, .refl s, rfl, .refl s, .refl s, .refl s⟩

theorem State.accept_sameButStatus (s : State) : s.SameButStatus s.accept :=
  ⟨s.accept_sameOperands, s.accept_sameOrder, rfl, s.accept_sameImage, s.accept_samePayload, s.accept_sameSurroundings⟩

theorem State.recordHeader_sameButStatus (s : State) : s.SameButStatus s.recordHeader :=
  ⟨s.recordHeader_sameOperands, s.recordHeader_sameOrder, rfl, s.recordHeader_sameImage, s.recordHeader_samePayload,
    s.recordHeader_sameSurroundings⟩

/-- The epilogue changes STATUS alone. -/
theorem Ended.finish_sameButStatus (e : Ended) : e.last.SameButStatus e.finish := by
  cases e <;> exact .refl _

/-- The table of a selection is IDENT's or ORDER's. -/
theorem State.selectOrder_keptByCommand (s : State) (l : List Word) {i : Instr} (hi : i = .ident ∨ i = .order) :
    s.KeptByCommand i (s.selectOrder l) :=
  ⟨s.selectOrder_sameOperands l, s.selectOrder_sameSurroundings l, fun _ => s.selectOrder_sameImage l,
    fun _ _ => s.selectOrder_samePayload l, fun h k => absurd hi (by simp [h, k]), fun _ => rfl⟩

theorem State.recordPrng_keptByCommand (s : State) (v : Word) : s.KeptByCommand .order (s.recordPrng v) :=
  ⟨s.recordPrng_sameOperands v, s.recordPrng_sameSurroundings v, fun _ => s.recordPrng_sameImage v,
    fun _ _ => s.recordPrng_samePayload v, fun _ _ => s.recordPrng_sameOrder v, fun h => absurd rfl h⟩

theorem State.scatterFrom_keptByCommand (s : State) (d : Depth) (n : Nat) :
    s.KeptByCommand .scatter (s.scatterFrom d n) :=
  ⟨s.scatterFrom_sameOperands d n, s.scatterFrom_sameSurroundings d n, fun h => absurd rfl h,
    fun _ _ => s.scatterFrom_samePayload d n, fun _ _ => s.scatterFrom_sameOrder d n, fun _ => rfl⟩

/-- The bytes of a gather are GATHER's or GATHERN's. -/
theorem State.gatherTo_keptByCommand (s : State) (d : Depth) (m n : Nat) {i : Instr} (hi : i = .gather ∨ i = .gathern) :
    s.KeptByCommand i (s.gatherTo d m n) :=
  ⟨s.gatherTo_sameOperands d m n, s.gatherTo_sameSurroundings d m n, fun _ => s.gatherTo_sameImage d m n,
    fun h k => absurd hi (by simp [h, k]), fun _ _ => s.gatherTo_sameOrder d m n, fun _ => rfl⟩

/-- Every way a body can end keeps what its command is no writer of. -/
theorem bodyOf_last_keptByCommand (i : Instr) (s : State) : s.KeptByCommand i (bodyOf i s).last := by
  have hsame := (State.SameButStatus.refl s).keptByCommand i
  rcases bodyOf_cases i s with ⟨k, e⟩ | ⟨_, e⟩ | ⟨hi, _, e⟩ | ⟨hi, _, e⟩ |
    ⟨d, _, _, ⟨hi, _, e⟩ | ⟨hi, _, e⟩ | ⟨hi, _, e | e | ⟨n, _, e⟩⟩⟩ <;> rw [e]
  · exact hsame
  · exact hsame
  · exact s.selectOrder_keptByCommand _ (.inl hi)
  · exact hi ▸ (s.recordPrng_keptByCommand _).trans (State.selectOrder_keptByCommand _ _ (.inr rfl))
  · exact hi ▸ s.scatterFrom_keptByCommand d _
  · exact s.gatherTo_keptByCommand d _ _ (.inr hi)
  · exact s.gatherTo_keptByCommand d _ _ (.inl hi)
  · exact (s.gatherTo_keptByCommand d _ _ (.inl hi)).trans ((State.recordHeader_sameButStatus _).keptByCommand i)
  · exact ((s.gatherTo_keptByCommand d _ _ (.inl hi)).trans
      ((State.recordHeader_sameButStatus _).keptByCommand i)).trans (State.gatherTo_keptByCommand _ d _ _ (.inl hi))

/-- Settles O32: acceptance and completion change STATUS and the result registers alone, and the body between them keeps
what its command is no writer of. -/
theorem eachMemoryHasItsOnlyWriters : Obligations.EachMemoryHasItsOnlyWriters := by
  intro i s t hexec
  obtain ⟨_, rfl⟩ := exec_next hexec
  exact ((s.accept_sameButStatus.keptByCommand i).trans (bodyOf_last_keptByCommand i s.accept)).trans
    ((Ended.finish_sameButStatus _).keptByCommand i)

/-! ## The one word of a command -/

/-- A word is its two fields. -/
theorem zeroField_append_opcField (w : Word) : zeroField w ++ opcField w = w :=
  BitVec.extractLsb'_append_extractLsb'_eq_extractLsb' (by rfl) |>.trans (BitVec.extractLsb'_eq_self)

/-- The decoder answers a command only for ZERO = 0 and that command's opcode. -/
theorem fields_of_decode {w : Word} {i : Instr} (h : decode w = .ok i) : zeroField w = 0 ∧ opcField w = opcode i := by
  unfold decode at h
  split at h
  next hzero => split at h <;> cases h <;> exact ⟨hzero, BitVec.eq_of_toNat_eq ‹_›⟩
  next => cases h

/-- A word that decodes to a command is that command's encoding (30_encoding.md R61). -/
theorem eq_encode_of_decode {w : Word} {i : Instr} (h : decode w = .ok i) : w = encode i := by
  obtain ⟨hzero, hopc⟩ := fields_of_decode h
  rw [← zeroField_append_opcField w, hzero, hopc, encode]

/-! ## ORD_VALID -/

/-- The epilogue leaves ORD_VALID alone. -/
@[simp] theorem Ended.finish_ordValid (e : Ended) : e.finish.ordValid = e.last.ordValid := by cases e <;> rfl

/-- A command leaves ORD_VALID alone, or it is an IDENT or ORDER that sets it and ends without error. -/
theorem bodyOf_finish_ordValid (i : Instr) (s : State) :
    (bodyOf i s.accept).finish.ordValid = s.ordValid ∨
    ((i = .ident ∨ i = .order) ∧ s.pixels ≤ s.maxPixels ∧
      (bodyOf i s.accept).finish.ordValid = true ∧ (bodyOf i s.accept).finish.err = false) := by
  by_cases hi : i = .ident ∨ i = .order
  · rcases bodyOf_cases i s.accept with ⟨k, e⟩ | ⟨_, e⟩ | ⟨_, hp, e⟩ | ⟨_, hp, e⟩ | ⟨_, _, _, ⟨h, _⟩ | ⟨h, _⟩ | ⟨h, _⟩⟩
    · exact .inl (by rw [e]; rfl)
    · exact .inl (by rw [e]; rfl)
    · exact .inr ⟨hi, hp, by rw [e]; exact ⟨rfl, rfl⟩⟩
    · exact .inr ⟨hi, hp, by rw [e]; exact ⟨rfl, rfl⟩⟩
    all_goals simp [h] at hi
  · obtain ⟨hident, horder⟩ := not_or.mp hi
    obtain ⟨_, _, _, _, hsame, _⟩ := bodyOf_last_keptByCommand i s.accept
    obtain ⟨hvalid, _⟩ := hsame hident horder
    exact .inl ((Ended.finish_ordValid _).trans hvalid)

/-- What a command word can do to ORD_VALID. -/
theorem runWord_ordValid {w : Word} {s t : State} (h : runWord w s = .next t) : t.ordValid = s.ordValid ∨
    ∃ i, (i = .ident ∨ i = .order) ∧ w = encode i ∧ s.pixels ≤ s.maxPixels ∧ t.ordValid = true ∧ t.err = false := by
  obtain ⟨_, ⟨i, hdec, rfl⟩ | rfl⟩ := runWord_next h
  · rcases bodyOf_finish_ordValid i s with hsame | ⟨hi, hp, hvalid, herr⟩
    · exact .inl hsame
    · exact .inr ⟨i, hi, eq_encode_of_decode hdec, hp, hvalid, herr⟩
  · exact .inl rfl

/-- What a host action can do to ORD_VALID: nothing, set it by a successful IDENT or ORDER, or clear it by a write to WIDTH
or HEIGHT or by reset. -/
theorem transact_ordValid {act : BusAction} {s t : State} (h : transact act s = .next t) :
    t.ordValid = s.ordValid ∨
    (∃ i, (i = .ident ∨ i = .order) ∧ act = .regWrite 0x14 32 (encode i) ∧ s.pixels ≤ s.maxPixels ∧
      t.ordValid = true ∧ t.err = false) ∨
    (t.ordValid = false ∧ ((∃ o v, (o = 0x04 ∨ o = 0x08) ∧ act = .regWrite o 32 v) ∨ act = .platformReset)) := by
  rcases transact_next h with ⟨r, _, rfl⟩ | ⟨o, v, hact, _, _, rfl⟩ | ⟨v, hact, _, hw⟩ | ⟨a, v, _, _, _, rfl⟩ |
    ⟨a, v, _, _, _, rfl⟩ | rfl | ⟨hact, rfl⟩
  · exact .inl rfl
  · rw [State.regWrite_ordValid]
    by_cases ho : o = 0x04 ∨ o = 0x08
    · exact .inr (.inr ⟨if_pos ho, .inl ⟨o, v, ho, hact⟩⟩)
    · exact .inl (if_neg ho)
  · rcases runWord_ordValid hw with hsame | ⟨i, hi, rfl, hset⟩
    · exact .inl hsame
    · exact .inr (.inl ⟨i, hi, hact, hset⟩)
  · exact .inl rfl
  · exact .inl rfl
  · exact .inl rfl
  · exact .inr (.inr ⟨rfl, .inr hact⟩)

/-- Settles O33: by what the one action of a step can do to ORD_VALID. -/
theorem ordValidChangesOnlyAsStated : Obligations.OrdValidChangesOnlyAsStated := by
  intro s s' hstep
  rcases step_next hstep with ⟨_, rfl⟩ | ⟨act, rest, hscript, hact⟩
  · exact ⟨fun h0 h1 => absurd (h0.symm.trans h1) (by decide), fun h1 h0 => absurd (h0.symm.trans h1) (by decide)⟩
  · rcases transact_ordValid hact with hsame | ⟨i, hi, rfl, hp, hset, herr⟩ | ⟨hclear, hcause⟩
    · have hsame : s'.ordValid = s.ordValid := hsame
      exact ⟨fun h0 h1 => by simp [hsame, h0] at h1, fun h1 h0 => by simp [hsame, h1] at h0⟩
    · exact ⟨fun _ _ => ⟨i, rest, hi, hscript, hp, herr⟩, fun _ h0 => by simp [hset] at h0⟩
    · refine ⟨fun _ h1 => by simp [hclear] at h1, fun _ _ => ?_⟩
      rcases hcause with ⟨o, v, ho, rfl⟩ | rfl
      · exact .inl ⟨o, v, rest, ho, hscript⟩
      · exact .inr ⟨rest, hscript⟩

end Sys2Proof.Machine
end

section
/-! Single facts of the register window and the step: CAPACITY, STATUS, reset, and the command word of a step
(10_state.md R12, R19, R20, R32; 45_system.md R125, R127, R128). -/

namespace Sys2Proof.Machine

/-! ## CAPACITY -/

/-- With a legal depth CAPACITY is the exact capacity: it fits 32 bits. -/
theorem State.capacityWord_toNat {s : State} {d : Depth} (hd : Depth.ofField s.bpc = some d) :
    s.capacityWord.toNat = capacity s.pixels d := by
  have := s.capacity_lt d
  rw [State.capacityWord, hd, BitVec.toNat_ofNat, Nat.mod_eq_of_lt (by omega)]

/-- Settles O12: the exact capacity, bounded for the largest geometry. -/
theorem capacityRegisterNeverWraps : Obligations.CapacityRegisterNeverWraps := by
  intro s d hd
  rw [State.capacityWord_toNat hd]
  exact ⟨rfl, s.capacity_lt d⟩

/-! ## STATUS -/

/-- Bit i of a word is b when it is so of its number. -/
theorem getLsbD_of_toNat {x : Word} {i : Nat} {b : Bool} (h : x.toNat / 2 ^ i % 2 = b.toNat) : x.getLsbD i = b := by
  rw [BitVec.getLsbD, Nat.testBit_eq_decide_div_mod_eq, h]
  cases b <;> rfl

/-- A bit field of a word is v when it is so of its number. -/
theorem extractLsb'_of_toNat {x : Word} {start len : Nat} {v : BitVec len}
    (h : x.toNat / 2 ^ start % 2 ^ len = v.toNat) : x.extractLsb' start len = v := by
  apply BitVec.eq_of_toNat_eq
  rw [BitVec.extractLsb'_toNat, Nat.shiftRight_eq_div_pow, h]

theorem State.statusFields_lt (s : State) : s.busy.toNat < 2 ∧ s.done.toNat < 2 ∧ s.err.toNat < 2 ∧
    s.ordValid.toNat < 2 ∧ s.errcode.toNat < 2 ^ 4 :=
  ⟨s.busy.toNat_lt, s.done.toNat_lt, s.err.toNat_lt, s.ordValid.toNat_lt, s.errcode.isLt⟩

/-- R125's sum fits the word. -/
theorem State.statusWord_toNat (s : State) : s.statusWord.toNat =
    s.busy.toNat + 2 * s.done.toNat + 4 * s.err.toNat + 8 * s.ordValid.toNat + 256 * s.errcode.toNat := by
  obtain ⟨_, _, _, _, _⟩ := s.statusFields_lt
  rw [State.statusWord, BitVec.toNat_ofNat, Nat.mod_eq_of_lt (by omega)]

/-- Settles O10: every field is read off R125's sum, whose terms do not overlap. -/
theorem statusWordHasItsFieldsInPlace : Obligations.StatusWordHasItsFieldsInPlace := by
  intro s
  have hsum := s.statusWord_toNat
  obtain ⟨_, _, _, _, _⟩ := s.statusFields_lt
  rw [State.regValue]
  refine ⟨getLsbD_of_toNat ?_, getLsbD_of_toNat ?_, getLsbD_of_toNat ?_, getLsbD_of_toNat ?_,
    extractLsb'_of_toNat (v := 0) (show _ = 0 from ?_), extractLsb'_of_toNat ?_,
    extractLsb'_of_toNat (v := 0) (show _ = 0 from ?_)⟩
  all_goals omega

/-! ## Reset -/

/-- After the reset event every word of the window reads 0. -/
theorem State.platformReset_regValue (s : State) (r : Reg) : s.platformReset.regValue r = 0 := by
  cases r <;> rfl

theorem State.reset_regValue (r : Reg) : State.reset.regValue r = 0 := by
  cases r <;> rfl

/-- Settles O5: the registers after power-up and after the event, and the memories that an idle unit's reset leaves. -/
theorem resetClearsRegistersAndKeepsMemories : Obligations.ResetClearsRegistersAndKeepsMemories := by
  refine ⟨State.reset_regValue, rfl, rfl, fun s => ⟨_, rfl, s.platformReset_regValue, rfl, rfl, rfl, fun hidle => ?_⟩⟩
  obtain ⟨himg, hpay, hepoch⟩ := State.platformReset_memories hidle
  exact ⟨fun a => by rw [State.imgByte, himg, hepoch, State.imgByte],
    fun a => by rw [State.payByte, hpay, hepoch, State.payByte]⟩

/-! ## The command word of a step -/

/-- A CMD write runs its word, busy or not: a busy unit refuses every command alike. -/
theorem transact_commandWrite (w : Word) (s : State) : transact (commandWrite w) s = runWord w s := by
  cases hb : s.busy with
  | false => simp [transact, commandWrite, hostRegWrite, badRegisterAccess, Reg.atOffset, hb]
  | true =>
    have hrun : runWord w s = .refused .hostAccessWhileBusy := by
      cases hdec : decode w with
      | ok i => simp [runWord, hdec, exec_eq, runCommand_busy hb]
      | error e => simp [runWord, hdec, execIllegal, runCommand_busy hb]
    simp [hrun, transact, commandWrite, hostRegWrite, badRegisterAccess, hb]

/-- A word that decodes to a command runs that command. -/
theorem transact_commandWrite_of_decode {w : Word} {i : Instr} (h : decode w = .ok i) (s : State) :
    transact (commandWrite w) s = exec i s := by
  rw [transact_commandWrite, runWord, h]

theorem step_nil {s : State} (h : s.script = []) : step s = .next s := by rw [step, perform, h]

theorem step_cons {s : State} {act : BusAction} {rest : List BusAction} (h : s.script = act :: rest) :
    step s = transact act { s with script := rest } := by rw [step, perform, h]

/-- What the table's reader of a word finds is what the decoder finds in its low bits. -/
theorem decode_of_decodeTableWord {nbits w : Nat} {i : Instr} (h : decodeTableWord nbits w = some i) :
    decode (BitVec.ofNat 32 (w % 2 ^ nbits)) = .ok i := by
  unfold decodeTableWord at h
  simp only at h
  split at h
  next => split at h <;> cases h; assumption
  next => cases h

/-- Settles O4: the step takes the action that waits, and a CMD write runs the command its word decodes to. -/
theorem stepRunsTheDecodedCommand : Obligations.StepRunsTheDecodedCommand := by
  refine ⟨fun s w rest i hscript hdec => ?_, fun s act rest => step_cons, fun s nbits w i htab => ?_, fun s => step_nil⟩
  · exact (step_cons hscript).trans (transact_commandWrite_of_decode hdec _)
  · exact (step_cons rfl).trans (transact_commandWrite_of_decode (decode_of_decodeTableWord htab) s)

end Sys2Proof.Machine
end

section
/-! The addresses of the three memories and of the register window: those the unit generates lie inside, and a host access
that lies outside stops the model (20_memory.md R40, R44, R47; 43_scatter.md R102). -/

namespace Sys2Proof.Machine

/-! ## The unit's own addresses -/

/-- The geometry fits ORD. -/
theorem State.OrderReady.pixels_le_ordDepth {s : State} (h : s.OrderReady) : s.pixels ≤ s.ordDepth := h.1

/-- The walk reads defined entries only. -/
theorem State.OrderReady.pixels_le_length {s : State} (h : s.OrderReady) : s.pixels ≤ s.ord.length := h.2.1

/-- Settles O44: the pixel of a group g < 3N is below N, the walk stays below 3N, and the groups of a length at most the
capacity fit the 3N channels. -/
theorem everyUnitAddressIsInsideItsSpace : Obligations.EveryUnitAddressIsInsideItsSpace := by
  intro s h
  refine ⟨fun g hg => ?_, fun d len hlen => ?_⟩
  · have hpixel : g / 3 < s.pixels := by omega
    have haddr := h.walkAddr_lt hg
    exact ⟨hpixel.trans_le h.pixels_le_ordDepth, hpixel.trans_le h.pixels_le_length, haddr,
      haddr.trans_le h.pixels_le_imgDepth⟩
  · have hcount : 8 * len / d.bits = len * (8 / d.bits) := groupCount_eq len d
    exact ⟨hcount.trans_le ((le_capacity_iff _ _ _).mp hlen), hcount.symm, h.le_payDepth hlen⟩

/-! ## Register accesses outside the window -/

theorem badRegisterAccess_of_width {offset bits : Nat} (h : bits ≠ 32) :
    badRegisterAccess offset bits = some .registerAccessNotAWord := if_pos h

theorem badRegisterAccess_of_misaligned {offset : Nat} (h : offset % 4 ≠ 0) :
    badRegisterAccess offset 32 = some .registerOffsetMisaligned := if_pos h

theorem badRegisterAccess_of_outside {offset : Nat} (halign : offset % 4 = 0) (h : 0x40 ≤ offset) :
    badRegisterAccess offset 32 = some .registerOffsetOutsideWindow := by
  simp [badRegisterAccess, halign, h]

/-- What has no meaning as a register access is refused as a read and as a write, whatever the state. -/
theorem transact_reg_of_bad {offset bits : Nat} {r : Refusal} (h : badRegisterAccess offset bits = some r) (s : State)
    (v : Word) : transact (.regRead offset bits) s = .refused r ∧ transact (.regWrite offset bits v) s = .refused r := by
  simp [transact, hostRegRead, hostRegWrite, h]

/-- Settles O14: each of the three clauses is one answer of the check that comes before everything else. -/
theorem malformedRegisterAccessesAreRefused : Obligations.MalformedRegisterAccessesAreRefused := by
  intro s offset bits v
  exact ⟨fun h => transact_reg_of_bad (badRegisterAccess_of_width h) s v,
    fun h => transact_reg_of_bad (badRegisterAccess_of_misaligned h) s v,
    fun halign h => transact_reg_of_bad (badRegisterAccess_of_outside halign h) s v⟩

/-! ## Memory accesses outside a space -/

/-- While idle an access to an address that is not below the depth ends in its space's fault. -/
theorem hostMemAccess_outside {depth a : Nat} {f : Fault} {eff : State → State} {s : State} (hb : s.busy = false)
    (ha : depth ≤ a) : hostMemAccess (a < depth) f eff s = .fault f := by
  simp [hostMemAccess, hb, ha]

/-- Settles O16: every clause is an access at or above the depth of its space. -/
theorem hostAccessesOutsideASpaceFault : Obligations.HostAccessesOutsideASpaceFault := by
  intro s hb a v w
  simp only [transact]
  exact ⟨fun h => ⟨hostMemAccess_outside hb h, hostMemAccess_outside hb h⟩,
    fun h => ⟨hostMemAccess_outside hb h, hostMemAccess_outside hb h⟩,
    fun h => ⟨hostMemAccess_outside hb h, hostMemAccess_outside hb h⟩⟩

end Sys2Proof.Machine
end


section
/-! The command words: decoder and encoder against the opcode map, and the illegal words (30_encoding.md R60 to R62). -/

namespace Sys2Proof.Machine

/-! ## Decoder and encoder -/

theorem decode_encode (i : Instr) : decode (encode i) = .ok i := by cases i <;> rfl

theorem decode_eq_ok_iff {w : Word} {i : Instr} : decode w = .ok i ↔ w = encode i :=
  ⟨eq_encode_of_decode, fun h => h ▸ decode_encode i⟩

/-- Every row of the opcode map compares the whole word with its command's encoding. -/
theorem commandTable_row : ∀ row ∈ commandTable, row.mask = BitVec.allOnes 32 ∧ row.pattern = encode row.command := by
  decide

theorem exists_commandTable_row (i : Instr) : ∃ row ∈ commandTable, row.command = i := by cases i <;> decide

/-- Settles O2: the decoder and the encoder are inverse to each other, and a row's match is its command's encoding under a
mask that keeps every bit. -/
theorem eachCommandHasExactlyOneWord : Obligations.EachCommandHasExactlyOneWord := by
  refine ⟨decode_encode, fun w i => eq_encode_of_decode, fun w row hrow => ?_, fun i => ?_⟩
  · obtain ⟨hmask, hpattern⟩ := commandTable_row row hrow
    rw [hmask, BitVec.and_allOnes, hpattern, decode_eq_ok_iff]
  · obtain ⟨row, hrow, hcommand⟩ := exists_commandTable_row i
    obtain ⟨hmask, _⟩ := commandTable_row row hrow
    exact ⟨row, hrow, hcommand, hmask⟩

/-- Settles O1: the six words are the commands' encodings; the two illegal words are evaluated. -/
theorem commandWordsDecode : Obligations.CommandWordsDecode :=
  ⟨decode_encode .nop, decode_encode .ident, decode_encode .order, decode_encode .scatter, decode_encode .gather,
    decode_encode .gathern, rfl, rfl⟩

/-! ## Illegal words -/

theorem opcField_toNat (w : Word) : (opcField w).toNat = w.toNat % 256 := by
  simp [opcField]

theorem zeroField_toNat (w : Word) : (zeroField w).toNat = w.toNat / 256 := by
  have := w.isLt
  simp only [zeroField, BitVec.extractLsb'_toNat, Nat.shiftRight_eq_div_pow]
  omega

theorem opcode_toNat_lt (i : Instr) : (opcode i).toNat < 6 := by cases i <;> decide

/-- OPC 0 to 5 are taken, one after another. -/
theorem exists_opcode_of_toNat_lt {b : BitVec 8} (h : b.toNat < 6) : ∃ i, opcode i = b := by
  have hcodes : List.range 6 = [.nop, .ident, .order, .scatter, .gather, .gathern].map fun i => (opcode i).toNat := rfl
  have hmem := List.mem_range.mpr h
  rw [hcodes] at hmem
  obtain ⟨i, _, hi⟩ := List.mem_map.mp hmem
  exact ⟨i, BitVec.eq_of_toNat_eq hi⟩

/-- The legal words are those with ZERO = 0 and OPC at most 5. -/
theorem exists_decode_eq_ok_iff (w : Word) : (∃ i, decode w = .ok i) ↔ zeroField w = 0 ∧ (opcField w).toNat < 6 := by
  constructor
  · rintro ⟨i, hi⟩
    obtain ⟨hzero, hopc⟩ := fields_of_decode hi
    exact ⟨hzero, hopc ▸ opcode_toNat_lt i⟩
  · rintro ⟨hzero, hlt⟩
    obtain ⟨i, hi⟩ := exists_opcode_of_toNat_lt hlt
    refine ⟨i, decode_eq_ok_iff.mpr ?_⟩
    rw [← zeroField_append_opcField w, hzero, ← hi, encode]

theorem exists_decode_eq_error_iff (w : Word) : (∃ e, decode w = .error e) ↔ ¬ ∃ i, decode w = .ok i := by
  cases decode w <;> simp

/-- Settles O3: the complement of the legal words, the two fields read as numbers. -/
theorem illegalWordsAreReservedOpcodeOrZeroFieldSet : Obligations.IllegalWordsAreReservedOpcodeOrZeroFieldSet := by
  intro w
  rw [exists_decode_eq_error_iff, exists_decode_eq_ok_iff, ← BitVec.toNat_inj, zeroField_toNat, opcField_toNat,
    BitVec.ofNat_eq_ofNat, BitVec.toNat_zero]
  omega

end Sys2Proof.Machine
end

section
/-! What the checks shared by the data commands answer, and a data command after a failed ORDER (30_encoding.md R66,
60_exceptions.md R146, R148). -/

namespace Sys2Proof.Machine

theorem Depth.exists_ofField {v : BitVec 2} (h : v = 1 ∨ v = 2) : ∃ d, Depth.ofField v = some d := by
  rcases h with rfl | rfl
  · exact ⟨.one, Depth.ofField_one⟩
  · exact ⟨.two, Depth.ofField_two⟩

theorem Depth.ofField_eq_none {v : BitVec 2} (h : v = 0 ∨ v = 3) : Depth.ofField v = none := by
  rcases h with rfl | rfl
  · exact Depth.ofField_zero
  · exact Depth.ofField_three

theorem withLegalWalk_of_illegalDepth (body : Depth → State → Ended) {s : State} (hd : Depth.ofField s.bpc = none) :
    withLegalWalk body s = .raised .invalidConfiguration s := by simp [withLegalWalk, hd]

theorem withLegalWalk_of_noOrder (body : Depth → State → Ended) {s : State} {d : Depth}
    (hd : Depth.ofField s.bpc = some d) (hv : s.ordValid = false) :
    withLegalWalk body s = .raised .orderNotReady s := by simp [withLegalWalk, hd, hv]

/-- The data commands are the ones behind the shared checks. -/
theorem exists_bodyOf_eq_withLegalWalk {i : Instr} (hi : i = .scatter ∨ i = .gather ∨ i = .gathern) :
    ∃ body, bodyOf i = withLegalWalk body := by
  rcases hi with rfl | rfl | rfl <;> exact ⟨_, rfl⟩

theorem Ended.finish_raised_endedWith (e : ErrorKind) (s : State) : (Ended.raised e s).finish.EndedWith e :=
  ⟨rfl, rfl, rfl, rfl⟩

/-- Beyond MAX_PIXELS the body of ORDER raises InvalidConfiguration and changes nothing. -/
theorem bodyOf_order_of_tooManyPixels {s : State} (h : s.maxPixels < s.pixels) :
    bodyOf .order s = .raised .invalidConfiguration s := if_pos h

/-- Without a valid order a data command ends with OrderNotReady when the depth is legal, with InvalidConfiguration when it
is not. -/
theorem exec_dataCommand_of_noOrder {i : Instr} (hi : i = .scatter ∨ i = .gather ∨ i = .gathern) {s : State}
    (hb : s.busy = false) (hv : s.ordValid = false) : ∃ u, exec i s = .next u ∧
      ((s.bpc = 1 ∨ s.bpc = 2) → u.EndedWith .orderNotReady) ∧
      ((s.bpc = 0 ∨ s.bpc = 3) → u.EndedWith .invalidConfiguration) := by
  obtain ⟨body, hbody⟩ := exists_bodyOf_eq_withLegalWalk hi
  refine ⟨_, exec_idle i hb, fun hlegal => ?_, fun hillegal => ?_⟩
  · obtain ⟨d, hd⟩ := Depth.exists_ofField hlegal
    rw [hbody, withLegalWalk_of_noOrder body (s := s.accept) hd hv]
    exact Ended.finish_raised_endedWith _ _
  · rw [hbody, withLegalWalk_of_illegalDepth body (s := s.accept) (Depth.ofField_eq_none hillegal)]
    exact Ended.finish_raised_endedWith _ _

/-- A geometry beyond MAX_PIXELS has no valid order. -/
theorem State.Inv.ordValid_of_tooManyPixels {s : State} (h : s.Inv) (hp : s.maxPixels < s.pixels) :
    s.ordValid = false := by
  rw [← Bool.not_eq_true]
  intro hv
  obtain ⟨hfits, _⟩ := h.orderGuarded hv
  omega

/-- Settles O30: the failed ORDER leaves ORD_VALID at 0, as the invariant has it for such a geometry, and CTRL.BPC as it
was. -/
theorem dataCommandAfterFailedOrderFails : Obligations.DataCommandAfterFailedOrderFails := by
  intro s t i hinv hp hi hexec
  obtain ⟨_, rfl⟩ := exec_next hexec
  rw [bodyOf_order_of_tooManyPixels (s := s.accept) hp]
  exact ⟨Ended.finish_raised_endedWith _ _, exec_dataCommand_of_noOrder (hi.imp_right .inl) rfl
    (hinv.ordValid_of_tooManyPixels hp)⟩

end Sys2Proof.Machine
end

section
/-! The operand registers a command reads (30_encoding.md R61, R63): a change of the others commutes with the command. -/

namespace Sys2Proof.Machine

/-- New values for some of the operand registers. -/
structure OperandChange where
  bpc : Option (BitVec 2) := none
  width : Option (BitVec 16) := none
  height : Option (BitVec 16) := none
  seed : Option Word := none
  payLen : Option Word := none

/-- The registers that `c` names changed, the others kept. -/
def State.changeOperands (c : OperandChange) (s : State) : State :=
  { s with
    bpc := c.bpc.getD s.bpc
    width := c.width.getD s.width
    height := c.height.getD s.height
    seed := c.seed.getD s.seed
    payLen := c.payLen.getD s.payLen }

/-- WIDTH and HEIGHT keep their values. -/
def OperandChange.KeepsGeometry (c : OperandChange) : Prop := c.width = none ∧ c.height = none

/-- No register that the command reads is changed (30_encoding.md R61, column "Operand registers read"). -/
def OperandChange.UnreadBy (c : OperandChange) : Instr → Prop
  | .nop => True
  | .ident => c.KeepsGeometry
  | .order => c.KeepsGeometry ∧ c.seed = none
  | .gather => c.KeepsGeometry ∧ c.bpc = none
  | .scatter | .gathern => c.KeepsGeometry ∧ c.bpc = none ∧ c.payLen = none

/-- The same end, its state changed by `f`. -/
def Ended.map (f : State → State) : Ended → Ended
  | .normally s => .normally (f s)
  | .raised e s => .raised e (f s)

section
variable (c : OperandChange) (s : State)

/-! ## What a change of operands leaves alone -/

@[simp] theorem State.changeOperands_busy : (s.changeOperands c).busy = s.busy := rfl
@[simp] theorem State.changeOperands_ordValid : (s.changeOperands c).ordValid = s.ordValid := rfl
@[simp] theorem State.changeOperands_maxPixels : (s.changeOperands c).maxPixels = s.maxPixels := rfl
@[simp] theorem State.changeOperands_payByte : (s.changeOperands c).payByte = s.payByte := rfl
@[simp] theorem State.changeOperands_hdrSize : (s.changeOperands c).hdrSize = s.hdrSize := rfl

variable {c}

theorem OperandChange.KeepsGeometry.pixels (h : c.KeepsGeometry) : (s.changeOperands c).pixels = s.pixels := by
  obtain ⟨hwidth, hheight⟩ := h
  simp [State.pixels, State.changeOperands, hwidth, hheight]

theorem State.changeOperands_bpc (h : c.bpc = none) : (s.changeOperands c).bpc = s.bpc := by
  simp [State.changeOperands, h]

theorem State.changeOperands_seed (h : c.seed = none) : (s.changeOperands c).seed = s.seed := by
  simp [State.changeOperands, h]

theorem State.changeOperands_payLen (h : c.payLen = none) : (s.changeOperands c).payLen = s.payLen := by
  simp [State.changeOperands, h]

/-! ## The operations commute with a change of operands -/

variable (c)

theorem State.accept_changeOperands : (s.changeOperands c).accept = s.accept.changeOperands c := rfl

theorem State.gatherTo_changeOperands (d : Depth) (m n : Nat) :
    (s.changeOperands c).gatherTo d m n = (s.gatherTo d m n).changeOperands c := rfl

theorem State.recordHeader_changeOperands : (s.changeOperands c).recordHeader = s.recordHeader.changeOperands c := rfl

theorem Ended.finish_map_changeOperands (e : Ended) :
    (e.map (State.changeOperands c)).finish = e.finish.changeOperands c := by
  cases e <;> rfl

variable {c}

theorem identBody_changeOperands (hg : c.KeepsGeometry) :
    identBody (s.changeOperands c) = (identBody s).map (State.changeOperands c) := by
  unfold identBody
  rw [hg.pixels, State.changeOperands_maxPixels]
  split <;> rfl

theorem orderBody_changeOperands (hg : c.KeepsGeometry) (hseed : c.seed = none) :
    orderBody (s.changeOperands c) = (orderBody s).map (State.changeOperands c) := by
  unfold orderBody
  rw [hg.pixels, State.changeOperands_seed s hseed, State.changeOperands_maxPixels]
  split <;> rfl

theorem withLegalWalk_changeOperands {body : Depth → State → Ended} (hbpc : c.bpc = none)
    (hbody : ∀ d, body d (s.changeOperands c) = (body d s).map (State.changeOperands c)) :
    withLegalWalk body (s.changeOperands c) = (withLegalWalk body s).map (State.changeOperands c) := by
  unfold withLegalWalk
  rw [State.changeOperands_bpc s hbpc]
  cases Depth.ofField s.bpc with
  | none => rfl
  | some d =>
    simp only [hbody, State.changeOperands_ordValid]
    split <;> rfl

theorem scatterWalk_changeOperands (hg : c.KeepsGeometry) (hlen : c.payLen = none) (d : Depth) :
    scatterWalk d (s.changeOperands c) = (scatterWalk d s).map (State.changeOperands c) := by
  unfold scatterWalk
  rw [hg.pixels, State.changeOperands_payLen s hlen]
  dsimp only
  split <;> rfl

theorem gathernWalk_changeOperands (hg : c.KeepsGeometry) (hlen : c.payLen = none) (d : Depth) :
    gathernWalk d (s.changeOperands c) = (gathernWalk d s).map (State.changeOperands c) := by
  unfold gathernWalk
  rw [hg.pixels, State.changeOperands_payLen s hlen]
  dsimp only
  split <;> rfl

/-- The size of the framed payload comes from the gathered header, not from PAY_LEN. -/
theorem gatherWalk_changeOperands (hg : c.KeepsGeometry) (d : Depth) :
    gatherWalk d (s.changeOperands c) = (gatherWalk d s).map (State.changeOperands c) := by
  unfold gatherWalk
  simp only [hg.pixels, State.gatherTo_changeOperands, State.recordHeader_changeOperands, State.changeOperands_payByte,
    State.changeOperands_hdrSize]
  split
  · rfl
  · split
    · split <;> rfl
    · rfl

/-- No body tells a change of the registers it does not read. -/
theorem bodyOf_changeOperands {i : Instr} (h : c.UnreadBy i) :
    bodyOf i (s.changeOperands c) = (bodyOf i s).map (State.changeOperands c) := by
  cases i with
  | nop => rfl
  | ident => exact identBody_changeOperands s h
  | order =>
    obtain ⟨hg, hseed⟩ := h
    exact orderBody_changeOperands s hg hseed
  | scatter =>
    obtain ⟨hg, hbpc, hlen⟩ := h
    exact withLegalWalk_changeOperands s hbpc (scatterWalk_changeOperands s hg hlen)
  | gather =>
    obtain ⟨hg, hbpc⟩ := h
    exact withLegalWalk_changeOperands s hbpc (gatherWalk_changeOperands s hg)
  | gathern =>
    obtain ⟨hg, hbpc, hlen⟩ := h
    exact withLegalWalk_changeOperands s hbpc (gathernWalk_changeOperands s hg hlen)

/-- A command gives the same outcome whether registers it does not read are changed before it or after it. -/
theorem exec_changeOperands {i : Instr} (h : c.UnreadBy i) :
    exec i (s.changeOperands c) = mapNext (State.changeOperands c) (exec i s) := by
  rw [exec_eq, exec_eq]
  cases hb : s.busy with
  | true => rw [runCommand_busy hb, runCommand_busy ((s.changeOperands_busy c).trans hb), mapNext]
  | false =>
    rw [runCommand_idle hb, runCommand_idle ((s.changeOperands_busy c).trans hb), mapNext, State.accept_changeOperands,
      bodyOf_changeOperands s.accept h, Ended.finish_map_changeOperands]

end

/-- Settles O34: each clause is the change of the registers that the command does not read. -/
theorem commandsReadOnlyTheirOperandRegisters : Obligations.CommandsReadOnlyTheirOperandRegisters := by
  intro s b w h v
  exact ⟨exec_changeOperands (i := .nop)
      (c := { bpc := some b, width := some w, height := some h, seed := some v, payLen := some v }) s trivial,
    exec_changeOperands (i := .ident) (c := { bpc := some b, seed := some v, payLen := some v }) s ⟨rfl, rfl⟩,
    exec_changeOperands (i := .order) (c := { bpc := some b, payLen := some v }) s ⟨⟨rfl, rfl⟩, rfl⟩,
    exec_changeOperands (i := .scatter) (c := { seed := some v }) s ⟨⟨rfl, rfl⟩, rfl, rfl⟩,
    exec_changeOperands (i := .gather) (c := { seed := some v, payLen := some v }) s ⟨⟨rfl, rfl⟩, rfl⟩,
    exec_changeOperands (i := .gathern) (c := { seed := some v }) s ⟨⟨rfl, rfl⟩, rfl, rfl⟩⟩

end Sys2Proof.Machine
end

section
/-! The bit and byte data path: numbers built from fields of equal width, bits and bytes, the groups of a byte, insert and low
(40_bit_byte.md R70 to R77). -/

namespace Sys2Proof.Machine

/-! ## Numbers built from fields -/

/-- The number whose fields of `w` bits are f 0, …, f (n − 1), the first the most significant: the sum that `bytesOf`,
`groupValue` and `pack` write out (`bytesOf_eq_some`, `groupValue_eq_fieldSum`, `pack_eq_fieldSum`). -/
def fieldSum (w n : Nat) (f : Nat → Nat) : Nat := ((List.range n).map fun k => f k * 2 ^ (w * (n - 1 - k))).sum

theorem fieldSum_bits (n : Nat) (f : Nat → Nat) :
    fieldSum 1 n f = ((List.range n).map fun k => f k * 2 ^ (n - 1 - k)).sum := by
  simp only [fieldSum, Nat.one_mul]

/-- A further field moves the others up by its width. -/
theorem fieldSum_succ (w n : Nat) (f : Nat → Nat) : fieldSum w (n + 1) f = 2 ^ w * fieldSum w n f + f n := by
  have hshift : ∀ k ∈ List.range n, f k * 2 ^ (w * (n + 1 - 1 - k)) = 2 ^ w * (f k * 2 ^ (w * (n - 1 - k))) := by
    intro k hk
    have hk := List.mem_range.mp hk
    rw [show n + 1 - 1 - k = n - 1 - k + 1 by omega, Nat.mul_succ, Nat.pow_add]
    ring
  rw [fieldSum, List.range_succ, List.map_append, List.sum_append, List.map_congr_left hshift, List.sum_map_mul_left]
  simp [fieldSum]

theorem fieldSum_lt {w n : Nat} {f : Nat → Nat} (hf : ∀ k, f k < 2 ^ w) : fieldSum w n f < 2 ^ (w * n) := by
  induction n with
  | zero => simp [fieldSum]
  | succ n ih =>
    rw [fieldSum_succ, Nat.mul_succ, Nat.pow_add, Nat.mul_comm (2 ^ (w * n))]
    calc 2 ^ w * fieldSum w n f + f n < 2 ^ w * (fieldSum w n f + 1) := Nat.add_lt_add_left (hf n) _
      _ ≤ 2 ^ w * 2 ^ (w * n) := Nat.mul_le_mul_left _ ih

/-- Bit b of field k. -/
theorem fieldSum_testBit {w n k b : Nat} {f : Nat → Nat} (hf : ∀ k, f k < 2 ^ w) (hk : k < n) (hb : b < w) :
    (fieldSum w n f).testBit (w * (n - 1 - k) + b) = (f k).testBit b := by
  induction n with
  | zero => omega
  | succ n ih =>
    rw [fieldSum_succ, Nat.testBit_two_pow_mul_add _ (hf n)]
    rcases Nat.lt_succ_iff_lt_or_eq.mp hk with hlt | rfl
    · rw [show n + 1 - 1 - k = n - 1 - k + 1 by omega, Nat.mul_succ, if_neg (by omega), ← ih hlt]
      congr 1
      omega
    · simp [hb]

/-- Fields of one bit: bit i, counted from the least significant, is field n − 1 − i. -/
theorem fieldSum_bits_testBit {n i : Nat} (f : Nat → Bool) (hi : i < n) :
    (fieldSum 1 n fun k => (f k).toNat).testBit i = f (n - 1 - i) := by
  have h := fieldSum_testBit (w := 1) (n := n) (k := n - 1 - i) (b := 0) (fun k => (f k).toNat_lt) (by omega) one_pos
  rw [show 1 * (n - 1 - (n - 1 - i)) + 0 = i by omega] at h
  rw [h]
  cases f (n - 1 - i) <;> rfl

/-! ## Bits and bytes -/

theorem streamBit_byte (B : List Byte) (j : Nat) {k : Nat} (hk : k < 8) :
    streamBit B (8 * j + k) = (B.getD j 0).getLsbD (7 - k) := by
  rw [streamBit, show (8 * j + k) / 8 = j by omega, show (8 * j + k) % 8 = k by omega]

@[simp] theorem bitsOf_length (B : List Byte) : (bitsOf B).length = 8 * B.length := by simp [bitsOf]

theorem bitsOf_getElem (B : List Byte) {i : Nat} (hi : i < (bitsOf B).length) : (bitsOf B)[i] = streamBit B i := by
  simp [bitsOf]

/-- The byte whose bits, the most significant first, are the bits 8j to 8j + 7 of a bit sequence. -/
def byteOfBits (b : List Bool) (j : Nat) : Byte := BitVec.ofNat 8 (fieldSum 1 8 fun k => (b.getD (8 * j + k) false).toNat)

theorem byteOfBits_getLsbD (b : List Bool) (j : Nat) {i : Nat} (hi : i < 8) :
    (byteOfBits b j).getLsbD i = b.getD (8 * j + (7 - i)) false := by
  rw [byteOfBits, BitVec.getLsbD_ofNat, fieldSum_bits_testBit _ hi]
  simp [hi]

theorem bytesOf_eq_some {b : List Bool} (h : b.length % 8 = 0) :
    bytesOf b = some ((List.range (b.length / 8)).map (byteOfBits b)) := by
  rw [bytesOf, if_pos h]
  exact congrArg some (List.map_congr_left fun j _ => by rw [byteOfBits, fieldSum_bits])

theorem bytesOf_isSome_iff (b : List Bool) : (bytesOf b).isSome = true ↔ b.length % 8 = 0 := by
  unfold bytesOf
  split <;> simp [*]

theorem byteOfBits_bitsOf (B : List Byte) {j : Nat} (hj : j < B.length) : byteOfBits (bitsOf B) j = B.getD j 0 := by
  apply BitVec.eq_of_getLsbD_eq
  intro i hi
  have hplace : 8 * j + (7 - i) < (bitsOf B).length := by rw [bitsOf_length]; omega
  rw [byteOfBits_getLsbD _ _ hi, List.getD_eq_getElem _ false hplace, bitsOf_getElem, streamBit_byte B j (by omega),
    Nat.sub_sub_self (by omega)]

theorem bytesOf_bitsOf (B : List Byte) : bytesOf (bitsOf B) = some B := by
  rw [bytesOf_eq_some (by simp)]
  refine congrArg some (List.ext_getElem (by simp) fun j _ hj => ?_)
  rw [List.getElem_map, List.getElem_range, byteOfBits_bitsOf B hj, List.getD_eq_getElem B 0 hj]

/-- The bytes of whole groups of eight bits have the bits they were made of. -/
theorem bitsOf_map_byteOfBits {b : List Bool} (h : b.length % 8 = 0) :
    bitsOf ((List.range (b.length / 8)).map (byteOfBits b)) = b := by
  refine List.ext_getElem (by simp; omega) fun i hleft hi => ?_
  have hj : i / 8 < b.length / 8 := by omega
  have hbyte : ((List.range (b.length / 8)).map (byteOfBits b)).getD (i / 8) 0 = byteOfBits b (i / 8) := by simp [hj]
  rw [bitsOf_getElem, streamBit, hbyte, byteOfBits_getLsbD _ _ (by omega),
    show 8 * (i / 8) + (7 - (7 - i % 8)) = i by omega, List.getD_eq_getElem b false hi]

/-- Settles O51: the byte of eight bits has those bits, at each place of the sequence. -/
theorem bitsAndBytesAreInverses : Obligations.BitsAndBytesAreInverses :=
  ⟨bytesOf_bitsOf, fun _ h => ⟨_, bytesOf_eq_some h, bitsOf_map_byteOfBits h⟩⟩

/-- Settles O52: the stream read at place 8j + k. -/
theorem bitStreamIsMostSignificantFirst : Obligations.BitStreamIsMostSignificantFirst := by
  intro B
  refine ⟨bitsOf_length B, fun j b hb k hk => ?_, bytesOf_isSome_iff⟩
  obtain ⟨hj, rfl⟩ := List.getElem?_eq_some_iff.mp hb
  have hplace : 8 * j + k < (bitsOf B).length := by rw [bitsOf_length]; omega
  rw [List.getElem?_eq_getElem hplace, bitsOf_getElem, streamBit_byte B j hk, List.getD_eq_getElem B 0 hj]

/-! ## Groups -/

theorem groupValue_eq_fieldSum (B : List Byte) (g : Nat) (d : Depth) :
    groupValue B g d = BitVec.ofNat 8 (fieldSum 1 d.bits fun t => (streamBit B (g * d.bits + t)).toNat) := by
  rw [groupValue, fieldSum_bits]

theorem pack_eq_fieldSum (vs : List Byte) (d : Depth) :
    pack vs d = BitVec.ofNat 8 (fieldSum d.bits d.groupsPerByte fun k => (vs.getD k 0).toNat) := rfl

theorem Depth.bits_lt (d : Depth) : d.bits < 8 := by cases d <;> decide

theorem Depth.mask_getLsbD (d : Depth) (i : Nat) : d.mask.getLsbD i = decide (i < d.bits) := by
  rw [Depth.mask, BitVec.getLsbD_ofNat, Nat.testBit_two_pow_sub_one]
  by_cases hi : i < d.bits
  · rw [decide_eq_true (hi.trans d.bits_lt), Bool.true_and]
  · rw [decide_eq_false hi, Bool.and_false]

theorem Depth.mask_toNat_lt (d : Depth) : d.mask.toNat < 2 ^ d.bits := by cases d <;> decide

/-- A group value has no bit above the mask. -/
theorem getLsbD_eq_false_of_toNat_lt {v : Byte} {n i : Nat} (hv : v.toNat < 2 ^ n) (hi : n ≤ i) : v.getLsbD i = false :=
  Nat.testBit_lt_two_pow (hv.trans_le (Nat.pow_le_pow_right two_pos hi))

/-- The place of a group's bit in its byte. -/
theorem Depth.place_lt (d : Depth) {k b : Nat} (hk : k < d.groupsPerByte) (hb : b < d.bits) :
    d.bits * (d.groupsPerByte - 1 - k) + b < 8 := by
  rcases d.bits_cases with ⟨hbits, hgpb⟩ | ⟨hbits, hgpb⟩ <;> simp only [hbits, hgpb] at hk hb ⊢ <;> omega

/-- Every bit of a byte has its place in one of the groups. -/
theorem Depth.exists_place (d : Depth) {i : Nat} (hi : i < 8) :
    ∃ k b, k < d.groupsPerByte ∧ b < d.bits ∧ i = d.bits * (d.groupsPerByte - 1 - k) + b := by
  refine ⟨d.groupsPerByte - 1 - i / d.bits, i % d.bits, ?_⟩
  rcases d.bits_cases with ⟨hbits, hgpb⟩ | ⟨hbits, hgpb⟩ <;> rw [hbits, hgpb] <;> omega

/-- Bit b of group k of byte j is the byte's bit at that place. -/
theorem groupValue_getLsbD (B : List Byte) (d : Depth) (j : Nat) {k b : Nat} (hk : k < d.groupsPerByte) (hb : b < d.bits) :
    (groupValue B (j * d.groupsPerByte + k) d).getLsbD b =
      (B.getD j 0).getLsbD (d.bits * (d.groupsPerByte - 1 - k) + b) := by
  have hindex : (j * d.groupsPerByte + k) * d.bits + (d.bits - 1 - b) =
      8 * j + (7 - (d.bits * (d.groupsPerByte - 1 - k) + b)) := by
    rcases d.bits_cases with ⟨hbits, hgpb⟩ | ⟨hbits, hgpb⟩ <;> simp only [hbits, hgpb] at hk hb ⊢ <;> omega
  have hplace := d.place_lt hk hb
  have hb8 : b < 8 := hb.trans d.bits_lt
  rw [groupValue_eq_fieldSum, BitVec.getLsbD_ofNat, fieldSum_bits_testBit _ hb, decide_eq_true hb8, Bool.true_and, hindex,
    streamBit_byte B j (by omega), Nat.sub_sub_self (by omega)]

theorem groupValue_toNat_lt (B : List Byte) (g : Nat) (d : Depth) : (groupValue B g d).toNat < 2 ^ d.bits := by
  have hsum := fieldSum_lt (w := 1) (n := d.bits) fun t => (streamBit B (g * d.bits + t)).toNat_lt
  rw [groupValue_eq_fieldSum, BitVec.toNat_ofNat]
  exact (Nat.mod_le _ _).trans_lt (by simpa using hsum)

/-- Bit b of value k of a pack stands at the place of that group's bit in its byte. -/
theorem pack_getLsbD {vs : List Byte} {d : Depth} (hvs : ∀ k, (vs.getD k 0).toNat < 2 ^ d.bits) {k b : Nat}
    (hk : k < d.groupsPerByte) (hb : b < d.bits) :
    (pack vs d).getLsbD (d.bits * (d.groupsPerByte - 1 - k) + b) = (vs.getD k 0).getLsbD b := by
  rw [pack_eq_fieldSum, BitVec.getLsbD_ofNat, fieldSum_testBit hvs hk hb, decide_eq_true (d.place_lt hk hb), Bool.true_and]
  rfl

/-- The gpb groups of byte j, in order. -/
def groupsOfByte (B : List Byte) (j : Nat) (d : Depth) : List Byte :=
  (List.range d.groupsPerByte).map fun k => groupValue B (j * d.groupsPerByte + k) d

theorem groupsOfByte_getD (B : List Byte) (j : Nat) {d : Depth} {k : Nat} (hk : k < d.groupsPerByte) :
    (groupsOfByte B j d).getD k 0 = groupValue B (j * d.groupsPerByte + k) d := by
  simp [groupsOfByte, hk]

theorem groupsOfByte_toNat_lt (B : List Byte) (j : Nat) (d : Depth) (k : Nat) :
    ((groupsOfByte B j d).getD k 0).toNat < 2 ^ d.bits := by
  by_cases hk : k < d.groupsPerByte
  · rw [groupsOfByte_getD B j hk]
    exact groupValue_toNat_lt _ _ _
  · simp [groupsOfByte, hk]

/-- Packing the groups of a byte puts each of its bits back. -/
theorem pack_groupsOfByte (B : List Byte) (j : Nat) (d : Depth) : pack (groupsOfByte B j d) d = B.getD j 0 := by
  apply BitVec.eq_of_getLsbD_eq
  intro i hi
  obtain ⟨k, b, hk, hb, rfl⟩ := d.exists_place hi
  rw [pack_getLsbD (groupsOfByte_toNat_lt B j d) hk hb, groupsOfByte_getD B j hk, groupValue_getLsbD B d j hk hb]

theorem groupValue_one (B : List Byte) (g : Nat) :
    groupValue B g .one = BitVec.ofNat 8 ((B.getD (g / 8) 0).getLsbD (7 - g % 8)).toNat := by
  simp [groupValue, streamBit, Depth.bits]

theorem groupValue_two (B : List Byte) (g : Nat) :
    groupValue B g .two = ((B.getD (g / 4) 0) >>> (6 - 2 * (g % 4))) &&& 3 := by
  apply BitVec.eq_of_getLsbD_eq
  intro i hi
  have hmask : (3 : Byte).getLsbD i = decide (i < 2) := Depth.two.mask_getLsbD i
  rw [BitVec.getLsbD_and, hmask, BitVec.getLsbD_ushiftRight]
  by_cases hb : i < 2
  · have hbit := groupValue_getLsbD B .two (g / 4) (k := g % 4) (b := i) (Nat.mod_lt g (by decide)) hb
    rw [show g / 4 * Depth.two.groupsPerByte + g % 4 = g from Nat.div_add_mod' g 4] at hbit
    rw [hbit, decide_eq_true hb, Bool.and_true]
    congr 1
    simp only [Depth.bits, Depth.groupsPerByte]
    omega
  · rw [getLsbD_eq_false_of_toNat_lt (groupValue_toNat_lt B g .two) (not_lt.mp hb), decide_eq_false hb, Bool.and_false]

/-- Settles O53: the two byte views of a group, and the byte rebuilt from its groups. -/
theorem packRebuildsTheByteOfItsGroups : Obligations.PackRebuildsTheByteOfItsGroups :=
  ⟨groupValue_one, groupValue_two, fun B d j _ => pack_groupsOfByte B j d⟩

/-! ## Insert and low -/

theorem lowBits_toNat_lt (x : Byte) (d : Depth) : (lowBits x d).toNat < 2 ^ d.bits := by
  have hle : (x &&& d.mask).toNat ≤ d.mask.toNat := by rw [BitVec.toNat_and]; exact Nat.and_le_right
  exact hle.trans_lt d.mask_toNat_lt

theorem lowBits_getLsbD (x : Byte) (d : Depth) (i : Nat) :
    (lowBits x d).getLsbD i = (x.getLsbD i && decide (i < d.bits)) := by
  rw [lowBits, BitVec.getLsbD_and, d.mask_getLsbD]

/-- Insert takes the low bits from the group and the others from the old byte. -/
theorem insertBits_getLsbD (old : Byte) {v : Byte} {d : Depth} (hv : v.toNat < 2 ^ d.bits) {i : Nat} (hi : i < 8) :
    (insertBits old v d).getLsbD i = if i < d.bits then v.getLsbD i else old.getLsbD i := by
  rw [insertBits, BitVec.getLsbD_or, BitVec.getLsbD_and, BitVec.getLsbD_not, d.mask_getLsbD]
  split
  · next hlow => simp [hlow]
  · next hhigh =>
    rw [getLsbD_eq_false_of_toNat_lt hv (not_lt.mp hhigh)]
    simp [hhigh, hi]

theorem Depth.not_mask (d : Depth) : ~~~d.mask = 255 - d.mask := by cases d <;> rfl

theorem insertBits_eq_xor (old : Byte) {v : Byte} {d : Depth} (hv : v.toNat < 2 ^ d.bits) :
    insertBits old v d = old ^^^ ((old ^^^ v) &&& d.mask) := by
  apply BitVec.eq_of_getLsbD_eq
  intro i hi
  rw [insertBits_getLsbD old hv hi, BitVec.getLsbD_xor, BitVec.getLsbD_and, BitVec.getLsbD_xor, d.mask_getLsbD]
  split
  · next hlow => simp [hlow]
  · next hhigh => simp [hhigh]

/-- Settles O54: the complement of the mask is 255 less the mask, and the exclusive-or form has the same bits. -/
theorem insertHasAnExclusiveOrForm : Obligations.InsertHasAnExclusiveOrForm := by
  intro old v d hv
  exact ⟨congrArg (old &&& · ||| v) d.not_mask, insertBits_eq_xor old hv⟩

theorem lowBits_insertBits (old : Byte) {v : Byte} {d : Depth} (hv : v.toNat < 2 ^ d.bits) :
    lowBits (insertBits old v d) d = v := by
  apply BitVec.eq_of_getLsbD_eq
  intro i hi
  rw [lowBits_getLsbD, insertBits_getLsbD old hv hi]
  split
  · next hlow => simp [hlow]
  · next hhigh => simp [hhigh, getLsbD_eq_false_of_toNat_lt hv (not_lt.mp hhigh)]

theorem insertBits_lowBits (old : Byte) (d : Depth) : insertBits old (lowBits old d) d = old := by
  apply BitVec.eq_of_getLsbD_eq
  intro i hi
  rw [insertBits_getLsbD old (lowBits_toNat_lt old d) hi, lowBits_getLsbD]
  split
  · next hlow => simp [hlow]
  · rfl

theorem insertBits_insertBits (old : Byte) {v v' : Byte} {d : Depth} (hv : v.toNat < 2 ^ d.bits)
    (hv' : v'.toNat < 2 ^ d.bits) : insertBits (insertBits old v d) v' d = insertBits old v' d := by
  apply BitVec.eq_of_getLsbD_eq
  intro i hi
  rw [insertBits_getLsbD _ hv' hi, insertBits_getLsbD old hv' hi, insertBits_getLsbD old hv hi]
  split <;> rfl

theorem insertBits_ushiftRight (old : Byte) {v : Byte} {d : Depth} (hv : v.toNat < 2 ^ d.bits) :
    insertBits old v d >>> d.bits = old >>> d.bits := by
  apply BitVec.eq_of_getLsbD_eq
  intro i _
  rw [BitVec.getLsbD_ushiftRight, BitVec.getLsbD_ushiftRight]
  by_cases hi : d.bits + i < 8
  · rw [insertBits_getLsbD old hv hi, if_neg (by omega)]
  · rw [BitVec.getLsbD_of_ge _ _ (not_lt.mp hi), BitVec.getLsbD_of_ge _ _ (not_lt.mp hi)]

/-- Bytes that differ in their low bits alone lie at most the mask apart. -/
theorem toNat_le_of_ushiftRight_eq {x y : Byte} {d : Depth} (h : x >>> d.bits = y >>> d.bits) :
    x.toNat ≤ y.toNat + (2 ^ d.bits - 1) := by
  have hhigh := congrArg BitVec.toNat h
  rw [BitVec.toNat_ushiftRight, BitVec.toNat_ushiftRight, Nat.shiftRight_eq_div_pow, Nat.shiftRight_eq_div_pow] at hhigh
  cases d <;> simp only [Depth.bits] at hhigh ⊢ <;> omega

/-- Settles O55: L1 to L4 bit by bit, L5 from L4. -/
theorem insertAndLowLaws : Obligations.InsertAndLowLaws := by
  intro old v v' d hv hv'
  have hhigh := insertBits_ushiftRight old hv
  exact ⟨lowBits_insertBits old hv, insertBits_lowBits old d, insertBits_insertBits old hv hv', hhigh,
    toNat_le_of_ushiftRight_eq hhigh, toNat_le_of_ushiftRight_eq hhigh.symm, Nat.le_of_lt_succ (insertBits old v d).isLt⟩

end Sys2Proof.Machine
end

section
/-! The pinned generator, the seed and the bounded draw on numbers (42_order.md R90 to R92). -/

namespace Sys2Proof.Machine

/-! ## The steps of xs32 are injective -/

/-- Bit i of x is bit i of the result and bit i − n of x, so the bits of x are known one after another from the least
significant up. -/
theorem xor_shiftLeft_injective {w n : Nat} (hn : 0 < n) : Function.Injective fun x : BitVec w => x ^^^ (x <<< n) := by
  intro x y h
  have hbits : ∀ k i, i < k → x.getLsbD i = y.getLsbD i := by
    intro k
    induction k with
    | zero => intro i hi; omega
    | succ k ih =>
      intro i hi
      have hbit := congrArg (·.getLsbD i) h
      simp only [BitVec.getLsbD_xor, BitVec.getLsbD_shiftLeft] at hbit
      by_cases hin : i < n
      · simpa [hin] using hbit
      · rw [ih (i - n) (by omega)] at hbit
        simpa using hbit
  exact BitVec.eq_of_getLsbD_eq fun i _ => hbits (i + 1) i (Nat.lt_succ_self i)

/-- The same from the most significant bit down: bit i + n is known before bit i. -/
theorem xor_ushiftRight_injective {w n : Nat} (hn : 0 < n) : Function.Injective fun x : BitVec w => x ^^^ (x >>> n) := by
  intro x y h
  have hbits : ∀ k i, w ≤ i + k → x.getLsbD i = y.getLsbD i := by
    intro k
    induction k with
    | zero => intro i hi; rw [BitVec.getLsbD_of_ge x i hi, BitVec.getLsbD_of_ge y i hi]
    | succ k ih =>
      intro i hi
      have hbit := congrArg (·.getLsbD i) h
      simp only [BitVec.getLsbD_xor, BitVec.getLsbD_ushiftRight] at hbit
      rw [ih (n + i) (by omega)] at hbit
      simpa using hbit
  exact BitVec.eq_of_getLsbD_eq fun i _ => hbits w i (Nat.le_add_left w i)

/-! ## xs32 -/

theorem xs32_zero : xs32 0 = 0 := by decide

theorem xs32_injective : Function.Injective xs32 :=
  (xor_shiftLeft_injective (n := 5) (by decide)).comp
    ((xor_ushiftRight_injective (n := 17) (by decide)).comp (xor_shiftLeft_injective (n := 13) (by decide)))

/-- An injection of finitely many words is a bijection. -/
theorem xs32_bijective : Function.Bijective xs32 :=
  have : Finite Word := .of_injective BitVec.toFin fun _ _ => BitVec.eq_of_toFin_eq
  Finite.injective_iff_bijective.mp xs32_injective

/-- However often the generator steps, it reaches 0 from 0 alone. -/
theorem xs32_iterate_ne_zero {v : Word} (hv : v ≠ 0) (n : Nat) : xs32^[n] v ≠ 0 :=
  (xs32_injective.iterate n).ne_iff' (Function.iterate_fixed xs32_zero n) |>.mpr hv

/-- A left shift drops what leaves the word. -/
theorem xor_shiftLeft_toNat (x : Word) (n : Nat) : (x ^^^ (x <<< n)).toNat = x.toNat ^^^ (x.toNat * 2 ^ n % 2 ^ 32) := by
  rw [BitVec.toNat_xor, BitVec.toNat_shiftLeft, Nat.shiftLeft_eq]

theorem xor_ushiftRight_toNat (x : Word) (n : Nat) : (x ^^^ (x >>> n)).toNat = x.toNat ^^^ (x.toNat / 2 ^ n) := by
  rw [BitVec.toNat_xor, BitVec.toNat_ushiftRight, Nat.shiftRight_eq_div_pow]

/-- Settles O37: the three steps on numbers; each is injective, so their composition is a bijection, and 0 has no other
preimage. -/
theorem generatorIsABijectionFixingZero : Obligations.GeneratorIsABijectionFixingZero := by
  refine ⟨fun s => ⟨_, _, rfl, rfl, ?_⟩, xs32_bijective, xs32_zero, fun s hs => xs32_iterate_ne_zero hs 1⟩
  rw [xs32, xor_shiftLeft_toNat, xor_ushiftRight_toNat, xor_shiftLeft_toNat]

/-! ## The seed and the draw -/

theorem seedState_zero : seedState 0 = 0x9E3779B9 := rfl

theorem seedState_of_ne_zero {v : Word} (hv : v ≠ 0) : seedState v = v := if_neg hv

theorem seedState_ne_zero (v : Word) : seedState v ≠ 0 := by
  by_cases hv : v = 0
  · rw [hv, seedState_zero]; decide
  · rwa [seedState_of_ne_zero hv]

/-- Settles O38: two seeds with one state are not both 0 and, being distinct, not both kept. -/
theorem seedStateIsNeverZero : Obligations.SeedStateIsNeverZero := by
  refine ⟨seedState_zero, fun v => seedState_of_ne_zero, seedState_ne_zero, fun v w hne heq => ?_⟩
  by_cases hv : v = 0
  · have hw : w ≠ 0 := fun hw => hne (hv.trans hw.symm)
    rw [hv, seedState_zero, seedState_of_ne_zero hw] at heq
    exact .inl ⟨hv, heq.symm⟩
  · by_cases hw : w = 0
    · rw [hw, seedState_zero, seedState_of_ne_zero hv] at heq
      exact .inr ⟨heq, hw⟩
    · rw [seedState_of_ne_zero hv, seedState_of_ne_zero hw] at heq
      exact absurd heq hne

/-- Settles O39: a shift by 32 is a division by 2^32, and the product lies below m × 2^32. -/
theorem boundedDrawStaysBelowItsBound : Obligations.BoundedDrawStaysBelowItsBound := by
  intro s m hm _
  exact ⟨(Nat.shiftRight_eq_div_pow _ _).symm, bounded_lt s hm⟩

end Sys2Proof.Machine
end

section
/-! IDENT and ORDER: the tables and generator states of the shuffle's loop, and what the two commands leave (42_order.md R93,
R95, R96). -/

namespace Sys2Proof.Machine

/-! ## The loop of R95 step by step -/

/-- Entry k of the table after m swaps, for the first generator state v: swap m + 1 is that of index n − 1 − m and of the
index drawn from state m + 1. -/
def shuffleTable (n : Nat) (v : Word) : Nat → Nat → Word
  | 0, k => BitVec.ofNat 32 k
  | m + 1, k => shuffleTable n v m (Equiv.swap (n - 1 - m) (bounded (xs32^[m + 1] v) (n - m)) k)

theorem shuffleTable_succ (n : Nat) (v : Word) (m k : Nat) : shuffleTable n v (m + 1) k =
    if k = n - 1 - m then shuffleTable n v m (bounded (xs32^[m + 1] v) (n - m))
    else if k = bounded (xs32^[m + 1] v) (n - m) then shuffleTable n v m (n - 1 - m)
    else shuffleTable n v m k := by
  rw [shuffleTable, Equiv.swap_apply_def, apply_ite (shuffleTable n v m), apply_ite (shuffleTable n v m)]

/-- The index drawn in step m + 1 is at most that step's own, n − 1 − m. -/
theorem bounded_le_index (w : Word) {n m : Nat} (hm : m + 1 < n) : bounded w (n - m) ≤ n - 1 - m := by
  have := bounded_lt w (show 0 < n - m by omega)
  omega

/-- A swap in a table written as a function of its entries. -/
theorem swapEntries_map_range (f : Nat → Word) {n i j : Nat} (hi : i < n) (hj : j < n) :
    swapEntries ((List.range n).map f) i j = (List.range n).map (fun k => f (Equiv.swap i j k)) := by
  refine List.ext_getElem (by simp) fun k hk hk' => ?_
  have hkn : k < n := by simpa using hk'
  rw [← List.getD_eq_getElem _ 0 hk, swapEntries_getD _ (by simpa using hi) (by simpa using hj)]
  simp [hi, hj, hkn, Equiv.swap_apply_def, apply_ite f]

/-- ORDER's result is that of the rest of the loop on the generator state and the table after m steps. -/
theorem shuffledOrder_eq_shuffleFrom (n : Nat) (seed : Word) {m : Nat} (hm : m ≤ n - 1) : shuffledOrder n seed =
    shuffleFrom (n - 1 - m) (xs32^[m] (seedState seed)) ((List.range n).map (shuffleTable n (seedState seed) m)) := by
  induction m with
  | zero => rfl
  | succ m ih =>
    have hj := bounded_le_index (xs32^[m.succ] (seedState seed)) (show m + 1 < n by omega)
    have hindex : n - 1 - m = n - 1 - (m + 1) + 1 := by omega
    have hbound : n - 1 - (m + 1) + 1 + 1 = n - m := by omega
    rw [ih (by omega), hindex, shuffleFrom, hbound, ← hindex, ← Function.iterate_succ_apply' xs32,
      swapEntries_map_range _ (by omega) (by omega)]
    rfl

/-- ORDER's generator state and table are those after n − 1 steps. -/
theorem shuffledOrder_eq (n : Nat) (seed : Word) : shuffledOrder n seed =
    (xs32^[n - 1] (seedState seed), (List.range n).map (shuffleTable n (seedState seed) (n - 1))) := by
  rw [shuffledOrder_eq_shuffleFrom n seed le_rfl, Nat.sub_self, shuffleFrom]

/-! ## The entries a selection leaves -/

theorem State.selectOrder_getElem?_of_lt (s : State) {l : List Word} {k : Nat} (hk : k < l.length) :
    (s.selectOrder l).ord[k]? = l[k]? :=
  List.getElem?_append_left hk

theorem State.selectOrder_getElem?_of_le (s : State) {l : List Word} {k : Nat} (hk : l.length ≤ k) :
    (s.selectOrder l).ord[k]? = s.ord[k]? := by
  rw [State.selectOrder_ord, List.getElem?_append_right hk, List.getElem?_drop, Nat.add_sub_cancel' hk]

/-- Every pixel is some entry of a ready table. -/
theorem State.OrderReady.exists_entry {s : State} (h : s.OrderReady) {p : Nat} (hp : p < s.pixels) :
    ∃ k, k < s.pixels ∧ s.ord[k]? = some (BitVec.ofNat 32 p) := by
  obtain ⟨_, _, hperm⟩ := h
  obtain ⟨w, hw, rfl⟩ := List.mem_map.mp (hperm.mem_iff.mpr (List.mem_range.mpr hp))
  obtain ⟨k, hk, rfl⟩ := List.mem_take_iff_getElem.mp hw
  exact ⟨k, by omega, by simp⟩

/-! ## What the commands answer -/

/-- A command whose body raises an error at once ends with it, and nothing but STATUS and the result registers changes. -/
theorem exec_of_raised {i : Instr} {e : ErrorKind} {s : State} (hb : s.busy = false)
    (hbody : bodyOf i s.accept = .raised e s.accept) :
    ∃ t, exec i s = .next t ∧ t.EndedWith e ∧ t.Results 0 0 0 0 ∧ s.SameButStatus t := by
  refine ⟨_, exec_idle i hb, ?_⟩
  rw [hbody]
  exact ⟨Ended.finish_raised_endedWith e _, ⟨rfl, rfl, rfl, rfl⟩, s.accept_sameButStatus⟩

/-- Beyond MAX_PIXELS the body of IDENT raises InvalidConfiguration and changes nothing. -/
theorem bodyOf_ident_of_tooManyPixels {s : State} (h : s.maxPixels < s.pixels) :
    bodyOf .ident s = .raised .invalidConfiguration s := if_pos h

theorem bodyOf_ident_of_fits {s : State} (h : s.pixels ≤ s.maxPixels) :
    bodyOf .ident s = .normally (s.selectOrder (identityOrder s.pixels)) := if_neg (not_lt.mpr h)

theorem bodyOf_order_of_fits {s : State} (h : s.pixels ≤ s.maxPixels) : bodyOf .order s =
    .normally ((s.recordPrng (shuffledOrder s.pixels s.seed).1).selectOrder (shuffledOrder s.pixels s.seed).2) :=
  if_neg (not_lt.mpr h)

theorem exec_ident_of_fits {s : State} (hb : s.busy = false) (h : s.pixels ≤ s.maxPixels) :
    exec .ident s = .next (s.accept.selectOrder (identityOrder s.pixels)).complete := by
  rw [exec_idle .ident hb, bodyOf_ident_of_fits (s := s.accept) h]
  rfl

theorem exec_order_of_fits {s : State} (hb : s.busy = false) (h : s.pixels ≤ s.maxPixels) :
    exec .order s = .next ((s.accept.recordPrng (shuffledOrder s.pixels s.seed).1).selectOrder
      (shuffledOrder s.pixels s.seed).2).complete := by
  rw [exec_idle .order hb, bodyOf_order_of_fits (s := s.accept) h]
  rfl

/-- An IDENT or ORDER without error had a geometry that fits. -/
theorem fits_of_exec_select {i : Instr} {s t : State} (hi : i = .ident ∨ i = .order) (h : exec i s = .next t)
    (herr : t.err = false) : s.busy = false ∧ s.pixels ≤ s.maxPixels := by
  obtain ⟨hb, rfl⟩ := exec_next h
  refine ⟨hb, not_lt.mp fun hlarge => ?_⟩
  have hraised : bodyOf i s.accept = .raised .invalidConfiguration s.accept := by
    rcases hi with rfl | rfl
    · exact bodyOf_ident_of_tooManyPixels (s := s.accept) hlarge
    · exact bodyOf_order_of_tooManyPixels (s := s.accept) hlarge
  rw [hraised] at herr
  cases herr

/-- A successful IDENT or ORDER leaves a ready order table. -/
theorem orderReady_of_exec_select {i : Instr} {s t : State} (hi : i = .ident ∨ i = .order) (h : exec i s = .next t)
    (herr : t.err = false) : t.OrderReady := by
  obtain ⟨hb, hfits⟩ := fits_of_exec_select hi h herr
  rcases hi with rfl | rfl
  · rw [exec_ident_of_fits hb hfits] at h
    cases h
    exact State.selectOrder_orderReady (s := s.accept) hfits (.of_eq (identityOrder_toNat s.pixels_le_two_pow))
  · rw [exec_order_of_fits hb hfits] at h
    cases h
    exact State.selectOrder_orderReady (s := s.accept.recordPrng _) hfits
      (shuffledOrder_toNat_perm s.pixels_le_two_pow s.seed)

/-- What a successful ORDER leaves in PRNG and ORD[0..N). -/
theorem order_next {s t : State} (h : exec .order s = .next t) (herr : t.err = false) :
    t.prng = xs32^[s.pixels - 1] (seedState s.seed) ∧
      ∀ k, k < s.pixels → t.ord[k]? = some (shuffleTable s.pixels (seedState s.seed) (s.pixels - 1) k) := by
  obtain ⟨hb, hfits⟩ := fits_of_exec_select (.inr rfl) h herr
  rw [exec_order_of_fits hb hfits, shuffledOrder_eq] at h
  cases h
  refine ⟨rfl, fun k hk => ?_⟩
  rw [State.complete_ord, State.selectOrder_getElem?_of_lt _ (by simpa using hk)]
  simp [hk]

/-! ## The statements -/

/-- Settles O20: the table selected is the identity sequence of length N; the frame is that of the only writers. -/
theorem identFillsTheIdentitySequence : Obligations.IdentFillsTheIdentitySequence := by
  refine ⟨decode_encode .ident, fun s hb => ⟨fun hfits => ?_, fun hlarge => ?_⟩⟩
  · have hexec := exec_ident_of_fits hb hfits
    obtain ⟨hops, hsur, himg, hpay, _, hprng⟩ := eachMemoryHasItsOnlyWriters .ident s _ hexec
    refine ⟨_, hexec, ⟨rfl, rfl, rfl, rfl⟩, ⟨rfl, rfl, rfl, rfl⟩, rfl, fun k hk => ?_, fun k hk => ?_, hprng (by decide),
      hops, himg (by decide), hpay (by decide) (by decide), hsur, rfl⟩
    · rw [State.complete_ord, State.selectOrder_getElem?_of_lt _ (by simpa using hk)]
      simp [identityOrder, hk]
    · rw [State.complete_ord, State.selectOrder_getElem?_of_le _ (by simpa using hk), State.accept_ord]
  · exact exec_of_raised hb (bodyOf_ident_of_tooManyPixels (s := s.accept) hlarge)

/-- Settles O21: `st` and `tab` are the states and tables of the loop's steps. -/
theorem orderRunsThePinnedShuffle : Obligations.OrderRunsThePinnedShuffle := by
  refine ⟨decode_encode .order, fun s hb => ⟨fun hfits => ?_, fun hlarge => ?_⟩⟩
  · have hexec := exec_order_of_fits hb hfits
    obtain ⟨hops, hsur, himg, hpay, _, _⟩ := eachMemoryHasItsOnlyWriters .order s _ hexec
    obtain ⟨hprng, hord⟩ := order_next hexec rfl
    refine ⟨_, hexec, ⟨rfl, rfl, rfl, rfl⟩, ⟨rfl, rfl, rfl, rfl⟩, rfl,
      ⟨(xs32^[·] (seedState s.seed)), shuffleTable s.pixels (seedState s.seed), rfl, fun _ => rfl, fun m hm => ?_, hord,
        hprng⟩, fun k hk => ?_, hops, himg (by decide), hpay (by decide) (by decide), hsur, rfl⟩
    · exact ⟨Function.iterate_succ_apply' xs32 m _, bounded_le_index _ hm, shuffleTable_succ s.pixels _ m⟩
    · rw [State.complete_ord, State.selectOrder_getElem?_of_le _ (by simpa using hk), State.recordPrng_ord,
        State.accept_ord]
  · exact exec_of_raised hb (bodyOf_order_of_tooManyPixels (s := s.accept) hlarge)

/-- Settles O40: the table left is ready for the geometry, which the command keeps. -/
theorem selectedOrderIsAPermutation : Obligations.SelectedOrderIsAPermutation := by
  intro i s t hi hexec herr
  obtain ⟨hops, _⟩ := eachMemoryHasItsOnlyWriters i s t hexec
  have hready := orderReady_of_exec_select hi hexec herr
  rw [← hops.pixels]
  have ⟨_, _, hperm⟩ := hready
  exact ⟨hperm, fun p => hready.exists_entry⟩

/-- Settles O41: PRNG and ORD[0..N) are those of the loop's last step, which is a function of N and seed_state. -/
theorem orderDependsOnPixelsAndSeedAlone : Obligations.OrderDependsOnPixelsAndSeedAlone := by
  intro s t s' t' hpixels hseed hs ht hserr hterr
  obtain ⟨hsprng, hsord⟩ := order_next hs hserr
  obtain ⟨htprng, htord⟩ := order_next ht hterr
  refine ⟨by rw [hsprng, htprng, hpixels, hseed], fun k hk => ?_⟩
  rw [hsord k hk, htord k (hpixels ▸ hk), hpixels, hseed]

/-- Settles O42: each of the N − 1 steps of the loop draws once, and xs32 leads from no other state to 0. -/
theorem orderLeavesTheGeneratorState : Obligations.OrderLeavesTheGeneratorState := by
  intro s t hexec herr
  obtain ⟨hprng, _⟩ := order_next hexec herr
  exact ⟨hprng, hprng ▸ xs32_iterate_ne_zero (seedState_ne_zero s.seed) _⟩

end Sys2Proof.Machine
end

section
/-! The scatter engine: the capacity, the walk that visits no channel twice, what a SCATTER leaves in each byte of the image,
and that its beats commute (43_scatter.md R100 to R104, 20_memory.md R41, R52). -/

namespace Sys2Proof.Machine

/-! ## The capacity -/

/-- Settles O56: over m = 3n channels cap(n, 1) is m / 8 and cap(n, 2) is m / 4; twice the first drops bit 2 of m. -/
theorem capacityFormulaAndDoubling : Obligations.CapacityFormulaAndDoubling := by
  intro n
  refine ⟨rfl, rfl, ?_⟩
  have hone : capacity n .one = 3 * n / 8 := by simp only [capacity, Depth.bits]; omega
  have htwo : capacity n .two = 3 * n / 4 := by simp only [capacity, Depth.bits]; omega
  rw [hone, htwo]
  refine ⟨?_, ?_, ?_⟩ <;> omega

/-! ## The walk -/

theorem State.ordEntry_of_getElem? {s : State} {k : Nat} {w : Word} (h : s.ord[k]? = some w) : s.ordEntry k = w := by
  rw [State.ordEntry, List.getD_eq_getElem?_getD, h, Option.getD_some]

/-- The channel of a group, within the pixel of its order entry (43_scatter.md R101). -/
theorem State.walkAddr_eq (s : State) (g : Nat) : s.walkAddr g = 3 * (s.ordEntry (g / 3)).toNat + g % 3 := rfl

/-- No pixel stands twice in a ready table. -/
theorem State.OrderReady.ordEntry_injective {s : State} (h : s.OrderReady) {j k : Nat} (hj : j < s.pixels)
    (hk : k < s.pixels) (he : (s.ordEntry j).toNat = (s.ordEntry k).toNat) : j = k := by
  obtain ⟨_, hlen, hperm⟩ := h
  have hnodup : ((s.ord.take s.pixels).map BitVec.toNat).Nodup := hperm.nodup_iff.mpr List.nodup_range
  have hentry : ∀ i (hi : i < s.pixels), s.ordEntry i = s.ord[i]'(hi.trans_le hlen) := fun i hi =>
    State.ordEntry_of_getElem? (List.getElem?_eq_getElem (hi.trans_le hlen))
  have hinside : ∀ i, i < s.pixels → i < ((s.ord.take s.pixels).map BitVec.toNat).length := fun i hi => by
    simpa [hi] using hi.trans_le hlen
  rw [hentry j hj, hentry k hk] at he
  exact (hnodup.getElem_inj_iff (hi := hinside j hj) (hj := hinside k hk)).mp (by simpa using he)

/-- The walk over a ready table visits no channel twice: the address gives back the entry and the channel. -/
theorem State.OrderReady.walkAddr_injective {s : State} (h : s.OrderReady) {g k : Nat} (hg : g < 3 * s.pixels)
    (hk : k < 3 * s.pixels) (he : s.walkAddr g = s.walkAddr k) : g = k := by
  rw [State.walkAddr_eq, State.walkAddr_eq] at he
  have hpixel : g / 3 = k / 3 := h.ordEntry_injective (by omega) (by omega) (by omega)
  omega

/-- Settles O43: a defined entry is what the walk reads, and the entries of a ready table differ. -/
theorem walkVisitsNoChannelTwice : Obligations.WalkVisitsNoChannelTwice := by
  refine fun s => ⟨fun g w hw => ?_, fun h g k hg hk he => h.walkAddr_injective hg hk he⟩
  rw [State.walkAddr_eq, State.ordEntry_of_getElem? hw]

/-! ## The beats -/

/-- The groups of a payload of at most the capacity go to pairwise different channels. -/
theorem State.OrderReady.walkAddr_injective_below_groupCount {s : State} (h : s.OrderReady) {d : Depth} {len : Nat}
    (hlen : len ≤ capacity s.pixels d) : ∀ g ∈ List.range (groupCount len d), ∀ k ∈ List.range (groupCount len d),
      s.walkAddr g = s.walkAddr k → g = k := by
  intro g hg k hk he
  have hgroups : groupCount len d ≤ 3 * s.pixels := groupCount_eq len d ▸ (le_capacity_iff _ _ _).mp hlen
  exact h.walkAddr_injective ((List.mem_range.mp hg).trans_le hgroups) ((List.mem_range.mp hk).trans_le hgroups) he

/-- Beats that go to pairwise different channels give the same image in any order: a byte gets its one group or is kept. -/
theorem readAs_scatterBeats_perm {s : State} {B : List Byte} {d : Depth} {gs hs : List Nat} (hperm : gs.Perm hs)
    (hn : hs.Nodup) (hi : ∀ g ∈ hs, ∀ k ∈ hs, s.walkAddr g = s.walkAddr k → g = k) (a : Nat) :
    (scatterBeats s B d gs).readAs .img s.memEpoch a = (scatterBeats s B d hs).readAs .img s.memEpoch a := by
  simp only [scatterBeats]
  by_cases hvisit : ∃ g ∈ hs, s.walkAddr g = a
  · obtain ⟨g, hg, rfl⟩ := hvisit
    rw [readAs_scatterBeats_visited s B d hs s.img hg hn hi]
    exact readAs_scatterBeats_visited s B d gs s.img (hperm.mem_iff.mpr hg) (hperm.nodup_iff.mpr hn)
      fun p hp q hq => hi p (hperm.mem_iff.mp hp) q (hperm.mem_iff.mp hq)
  · have hmiss : ∀ g ∈ hs, s.walkAddr g ≠ a := fun g hg he => hvisit ⟨g, hg, he⟩
    rw [readAs_scatterBeats_unvisited s B d hs s.img a hmiss]
    exact readAs_scatterBeats_unvisited s B d gs s.img a fun g hg => hmiss g (hperm.mem_iff.mp hg)

/-- Settles O45: the beats are those of distinct groups, and a ready order sends them to different channels. -/
theorem scatterBeatsCommute : Obligations.ScatterBeatsCommute := by
  intro s d B gs h hB hperm a
  exact readAs_scatterBeats_perm hperm List.nodup_range (h.walkAddr_injective_below_groupCount hB) a

/-! ## The command -/

/-- The byte at the channel of a group of the payload gets that group (43_scatter.md R104 F1). -/
theorem State.OrderReady.scatterFrom_imgByte_walkAddr {s : State} (h : s.OrderReady) {d : Depth} {len g : Nat}
    (hlen : len ≤ capacity s.pixels d) (hg : g < groupCount len d) : (s.scatterFrom d len).imgByte (s.walkAddr g) =
      insertBits (s.imgByte (s.walkAddr g)) (groupValue (s.payload len) g d) d :=
  readAs_scatterBeats_visited s _ d _ s.img (List.mem_range.mpr hg) List.nodup_range
    (h.walkAddr_injective_below_groupCount hlen)

/-- A byte at no group's channel is kept (43_scatter.md R104 F4). -/
theorem State.scatterFrom_imgByte_unvisited (s : State) {d : Depth} {len a : Nat}
    (ha : ∀ g, g < groupCount len d → s.walkAddr g ≠ a) : (s.scatterFrom d len).imgByte a = s.imgByte a :=
  readAs_scatterBeats_unvisited s _ d _ s.img a fun g hg => ha g (List.mem_range.mp hg)

theorem bodyOf_scatter_of_fits {s : State} {d : Depth} (hd : Depth.ofField s.bpc = some d) (hv : s.ordValid = true)
    (hlen : s.payLen.toNat ≤ capacity s.pixels d) : bodyOf .scatter s = .normally (s.scatterFrom d s.payLen.toNat) :=
  (withLegalWalk_ready (body := scatterWalk) hd hv).trans (if_neg (not_lt.mpr hlen))

/-- An accepted SCATTER whose three checks pass performs the beats and completes. -/
theorem exec_scatter_of_fits {s : State} {d : Depth} (hb : s.busy = false) (hd : Depth.ofField s.bpc = some d)
    (hv : s.ordValid = true) (hlen : s.payLen.toNat ≤ capacity s.pixels d) :
    exec .scatter s = .next (s.accept.scatterFrom d s.payLen.toNat).complete := by
  rw [exec_idle .scatter hb, bodyOf_scatter_of_fits (s := s.accept) hd hv hlen]
  rfl

/-- Settles O22: F1 and F4 are what the beats leave in a byte, F2 and F3 the laws of insert; the frame is that of the only
writers. -/
theorem scatterWritesTheGroupsAlongTheWalk : Obligations.ScatterWritesTheGroupsAlongTheWalk := by
  intro s d hb hd hv hready hlen
  have hexec := exec_scatter_of_fits hb hd hv hlen
  obtain ⟨hops, hsur, _, hpay, hord, hprng⟩ := eachMemoryHasItsOnlyWriters .scatter s _ hexec
  refine ⟨_, hexec, ⟨rfl, rfl, rfl, rfl⟩, ⟨rfl, rfl, rfl, rfl⟩, fun g hg => ?_,
    fun a ha => s.accept.scatterFrom_imgByte_unvisited ha, hops, hord (by decide) (by decide), hprng (by decide),
    hpay (by decide) (by decide), hsur⟩
  have hvalue := groupValue_toNat_lt (s.payload s.payLen.toNat) g d
  have hbyte : (s.accept.scatterFrom d s.payLen.toNat).complete.imgByte (s.walkAddr g) =
      insertBits (s.imgByte (s.walkAddr g)) (groupValue (s.payload s.payLen.toNat) g d) d :=
    State.OrderReady.scatterFrom_imgByte_walkAddr (s := s.accept) hready hlen hg
  rw [hbyte]
  exact ⟨rfl, lowBits_insertBits _ hvalue, insertBits_ushiftRight _ hvalue⟩

end Sys2Proof.Machine
end

section
/-! The gather engine: what a gathered byte is made of, what GATHERN and GATHER leave, and which channels they read
(44_gather.md R110 to R113, R115). -/

namespace Sys2Proof.Machine

/-! ## The gathered byte -/

/-- The low bits of the channels that make gathered byte j, in the walk's order: the values `gatherByte` packs. -/
def State.gatheredGroups (s : State) (d : Depth) (j : Nat) : List Byte :=
  (List.range d.groupsPerByte).map fun k => lowBits (s.imgByte (s.walkAddr (j * d.groupsPerByte + k))) d

theorem State.gatherByte_eq_pack (s : State) (d : Depth) (j : Nat) : s.gatherByte d j = pack (s.gatheredGroups d j) d := rfl

theorem State.gatheredGroups_getD (s : State) {d : Depth} (j : Nat) {k : Nat} (hk : k < d.groupsPerByte) :
    (s.gatheredGroups d j).getD k 0 = lowBits (s.imgByte (s.walkAddr (j * d.groupsPerByte + k))) d := by
  simp [State.gatheredGroups, hk]

theorem State.gatheredGroups_toNat_lt (s : State) (d : Depth) (j k : Nat) :
    ((s.gatheredGroups d j).getD k 0).toNat < 2 ^ d.bits := by
  by_cases hk : k < d.groupsPerByte
  · rw [s.gatheredGroups_getD j hk]
    exact lowBits_toNat_lt _ d
  · simp [State.gatheredGroups, hk]

/-- Bit b of the channel of group k stands in the gathered byte at that group's place. -/
theorem State.gatherByte_getLsbD (s : State) {d : Depth} (j : Nat) {k b : Nat} (hk : k < d.groupsPerByte)
    (hb : b < d.bits) : (s.gatherByte d j).getLsbD (d.bits * (d.groupsPerByte - 1 - k) + b) =
      (s.imgByte (s.walkAddr (j * d.groupsPerByte + k))).getLsbD b := by
  rw [s.gatherByte_eq_pack, pack_getLsbD (s.gatheredGroups_toNat_lt d j) hk hb, s.gatheredGroups_getD j hk,
    lowBits_getLsbD, decide_eq_true hb, Bool.and_true]

/-- Settles O46: the place of bit b of group k of gpb is bpc × (gpb − 1 − k) + b. -/
theorem gatherByteTakesFirstChannelFirst : Obligations.GatherByteTakesFirstChannelFirst := by
  refine fun s j => ⟨fun k hk => ?_, fun k hk => ⟨?_, ?_⟩⟩
  · have hbit := s.gatherByte_getLsbD (d := .one) j hk (b := 0) (by decide)
    rwa [show Depth.one.bits * (Depth.one.groupsPerByte - 1 - k) + 0 = 7 - k from Nat.one_mul _] at hbit
  · have hbit := s.gatherByte_getLsbD (d := .two) j hk (b := 1) (by decide)
    rwa [show Depth.two.bits * (Depth.two.groupsPerByte - 1 - k) + 1 = 7 - 2 * k by
      change 2 * (3 - k) + 1 = 7 - 2 * k; omega] at hbit
  · have hbit := s.gatherByte_getLsbD (d := .two) j hk (b := 0) (by decide)
    rwa [show Depth.two.bits * (Depth.two.groupsPerByte - 1 - k) + 0 = 6 - 2 * k by
      change 2 * (3 - k) = 6 - 2 * k; omega] at hbit

/-- The first n channels of the walk read the same. -/
def State.SameChannels (s t : State) (n : Nat) : Prop :=
  ∀ g, g < n → t.imgByte (t.walkAddr g) = s.imgByte (s.walkAddr g)

/-- The groups of byte j are among those of the first n bytes. -/
theorem Depth.group_lt (d : Depth) {n j k : Nat} (hj : j < n) (hk : k < d.groupsPerByte) :
    j * d.groupsPerByte + k < n * d.groupsPerByte :=
  calc j * d.groupsPerByte + k < j * d.groupsPerByte + d.groupsPerByte := Nat.add_lt_add_left hk _
    _ = (j + 1) * d.groupsPerByte := (Nat.succ_mul _ _).symm
    _ ≤ n * d.groupsPerByte := Nat.mul_le_mul_right _ hj

/-- A gathered byte depends on its own channels alone. -/
theorem State.SameChannels.gatherByte {s t : State} {d : Depth} {n j : Nat}
    (h : s.SameChannels t (n * d.groupsPerByte)) (hj : j < n) : t.gatherByte d j = s.gatherByte d j := by
  have hgroups : t.gatheredGroups d j = s.gatheredGroups d j :=
    List.map_congr_left fun k hk => congrArg (lowBits · d) (h _ (d.group_lt hj (List.mem_range.mp hk)))
  rw [t.gatherByte_eq_pack, s.gatherByte_eq_pack, hgroups]

/-! ## PAY and the frame after a gather -/

/-- `t` is `s` with the first n bytes of PAY gathered at depth d; all but STATUS and the result registers is kept. -/
def State.Gathered (s t : State) (d : Depth) (n : Nat) : Prop :=
  (∀ j, j < n → t.payByte j = s.gatherByte d j) ∧ (∀ j, n ≤ j → t.payByte j = s.payByte j) ∧
    s.SameOperands t ∧ s.SameOrder t ∧ t.prng = s.prng ∧ s.SameImage t ∧ s.SameSurroundings t

/-- The frame of the two gathering commands is that of PAY's only writers. -/
theorem gathered_of_exec {i : Instr} (hi : i = .gather ∨ i = .gathern) {s : State} {e : Ended}
    (hexec : exec i s = .next e.finish) {d : Depth} {n : Nat}
    (hpay : ∀ j, e.last.payByte j = if j < n then s.gatherByte d j else s.payByte j) : s.Gathered e.finish d n := by
  obtain ⟨hops, hsur, himg, _, hord, hprng⟩ := eachMemoryHasItsOnlyWriters i s e.finish hexec
  obtain ⟨_, _, _, _, hfinish, _⟩ := e.finish_sameButStatus
  have hwriter : i ≠ .scatter ∧ i ≠ .ident ∧ i ≠ .order := by rcases hi with rfl | rfl <;> decide
  obtain ⟨hscatter, hident, horder⟩ := hwriter
  exact ⟨fun j hj => (hfinish j).trans ((hpay j).trans (if_pos hj)),
    fun j hj => (hfinish j).trans ((hpay j).trans (if_neg (not_lt.mpr hj))), hops, hord hident horder, hprng horder,
    himg hscatter, hsur⟩

theorem State.gatherTo_zero_payByte (s : State) (d : Depth) (n j : Nat) :
    (s.gatherTo d 0 n).payByte j = if j < n then s.gatherByte d j else s.payByte j := by
  rw [s.gatherTo_payByte]
  simp

/-- What GATHER leaves of a framed payload with n bytes behind its header: the header phase, HDR_SIZE and HDR_FLAGS, the
body phase (44_gather.md R112). -/
def State.gatherFramed (s : State) (d : Depth) (n : Nat) : State :=
  (s.gatherTo d 0 hdrLen).recordHeader.gatherTo d hdrLen n

/-- The two phases together gather the bytes from 0 up. -/
theorem State.gatherFramed_payByte (s : State) (d : Depth) (n j : Nat) :
    (s.gatherFramed d n).payByte j = if j < hdrLen + n then s.gatherByte d j else s.payByte j := by
  rw [State.gatherFramed, State.gatherTo_payByte, State.recordHeader_payByte, State.recordHeader_gatherByte,
    State.gatherTo_gatherByte, s.gatherTo_zero_payByte]
  by_cases hhdr : j < hdrLen
  · rw [if_neg (by omega), if_pos hhdr, if_pos (by omega)]
  · rw [if_neg hhdr]
    simp [not_lt.mp hhdr]

/-- Magic and size in PAY after the header phase are those of the gathered bytes. -/
theorem State.gatherTo_header (s : State) (d : Depth) :
    magicOk (s.gatherTo d 0 hdrLen).payByte = magicOk (s.gatherByte d) ∧
    headerSize (s.gatherTo d 0 hdrLen).payByte = headerSize (s.gatherByte d) := by
  obtain ⟨hmagic, hsize, _⟩ :=
    header_congr fun j hj => (s.gatherTo_zero_payByte d hdrLen j).trans (if_pos hj)
  exact ⟨hmagic, hsize⟩

/-- A gather from 0 up counts its bytes and leaves HDR_SIZE and HDR_FLAGS as acceptance cleared them. -/
theorem State.accept_gatherTo_results (s : State) (d : Depth) (n : Nat) :
    (s.accept.gatherTo d 0 n).Results n (n * d.groupsPerByte) 0 0 := by
  obtain ⟨hres, hbeats⟩ := s.accept.gatherTo_countsBytes d 0 n
  rw [Nat.zero_add] at hres hbeats
  exact ⟨hres, hbeats, rfl, rfl⟩

/-- HDR_SIZE and HDR_FLAGS as recorded are those of the gathered bytes. -/
theorem State.recordHeader_results (s : State) (d : Depth) :
    (s.gatherTo d 0 hdrLen).recordHeader.Results hdrLen (hdrLen * d.groupsPerByte) (headerSize (s.gatherByte d)).toNat
      (s.gatherByte d 40) := by
  obtain ⟨_, hsize⟩ := s.gatherTo_header d
  have hflags : (s.gatherTo d 0 hdrLen).payByte 40 = s.gatherByte d 40 :=
    (s.gatherTo_zero_payByte d hdrLen 40).trans (if_pos (by decide))
  rw [State.Results, State.recordHeader_hdrSize, State.recordHeader_hdrFlags, hsize, hflags, BitVec.ofNat_toNat,
    BitVec.setWidth_eq]
  exact ⟨rfl, rfl, rfl, rfl⟩

theorem State.gatherFramed_results (s : State) (d : Depth) (n : Nat) :
    (s.gatherFramed d n).Results (hdrLen + n) ((hdrLen + n) * d.groupsPerByte) (headerSize (s.gatherByte d)).toNat
      (s.gatherByte d 40) := by
  obtain ⟨_, _, hsize, hflags⟩ := s.recordHeader_results d
  obtain ⟨hres, hbeats⟩ := State.gatherTo_countsBytes (s.gatherTo d 0 hdrLen).recordHeader d hdrLen n
  rw [State.Results, State.gatherFramed, State.gatherTo_hdrSize, State.gatherTo_hdrFlags]
  exact ⟨hres, hbeats, hsize, hflags⟩

/-- The epilogue keeps the result registers. -/
theorem Ended.finish_results {e : Ended} {n m k : Nat} {f : Byte} (h : e.last.Results n m k f) :
    e.finish.Results n m k f := by cases e <;> exact h

theorem Ended.finish_normally_endedWell {s : State} (herr : s.err = false) (hcode : s.errcode = 0) :
    (Ended.normally s).finish.EndedWell := ⟨rfl, rfl, herr, hcode⟩

/-! ## What the commands answer -/

theorem bodyOf_gathern_of_fits {s : State} {d : Depth} (hd : Depth.ofField s.bpc = some d) (hv : s.ordValid = true)
    (hlen : s.payLen.toNat ≤ capacity s.pixels d) : bodyOf .gathern s = .normally (s.gatherTo d 0 s.payLen.toNat) :=
  (withLegalWalk_ready (body := gathernWalk) hd hv).trans (if_neg (not_lt.mpr hlen))

theorem exec_gathern_of_fits {s : State} {d : Depth} (hb : s.busy = false) (hd : Depth.ofField s.bpc = some d)
    (hv : s.ordValid = true) (hlen : s.payLen.toNat ≤ capacity s.pixels d) :
    exec .gathern s = .next (Ended.normally (s.accept.gatherTo d 0 s.payLen.toNat)).finish := by
  rw [exec_idle .gathern hb, bodyOf_gathern_of_fits (s := s.accept) hd hv hlen]
  rfl

/-- Settles O23: the checks pass, and PAY is written from 0 up. -/
theorem gathernCollectsTheStatedBytes : Obligations.GathernCollectsTheStatedBytes := by
  intro s d hb hd hv hlen
  have hexec := exec_gathern_of_fits hb hd hv hlen
  exact ⟨_, hexec, Ended.finish_normally_endedWell rfl rfl, Ended.finish_results (s.accept_gatherTo_results d _),
    gathered_of_exec (.inr rfl) hexec (s.accept.gatherTo_zero_payByte d _)⟩

/-- GATHER past its capacity check, its two decisions in terms of the gathered bytes (44_gather.md R112). -/
theorem gatherWalk_eq {s : State} {d : Depth} (hcap : hdrLen ≤ capacity s.pixels d) : gatherWalk d s =
    if magicOk (s.gatherByte d) = true then
      if capacity s.pixels d < hdrLen + (headerSize (s.gatherByte d)).toNat then
        .raised .insufficientBits (s.gatherTo d 0 hdrLen).recordHeader
      else .normally (s.gatherFramed d (headerSize (s.gatherByte d)).toNat)
    else .raised .badMagic (s.gatherTo d 0 hdrLen) := by
  obtain ⟨hmagic, hsize⟩ := s.gatherTo_header d
  simp only [gatherWalk, if_neg (not_lt.mpr hcap), hmagic, State.recordHeader_hdrSize, hsize, State.gatherFramed]

section
variable {s : State} {d : Depth} (hb : s.busy = false) (hd : Depth.ofField s.bpc = some d) (hv : s.ordValid = true)

include hb hd hv

/-- Past the shared checks and that of the capacity GATHER decides by the gathered header. -/
theorem exec_gather_of_ready (hcap : hdrLen ≤ capacity s.pixels d) : exec .gather s = .next (Ended.finish
    (if magicOk (s.gatherByte d) = true then
      if capacity s.pixels d < hdrLen + (headerSize (s.gatherByte d)).toNat then
        .raised .insufficientBits (s.accept.gatherTo d 0 hdrLen).recordHeader
      else .normally (s.accept.gatherFramed d (headerSize (s.gatherByte d)).toNat)
    else .raised .badMagic (s.accept.gatherTo d 0 hdrLen))) := by
  rw [exec_idle .gather hb, show bodyOf .gather = withLegalWalk gatherWalk from rfl,
    withLegalWalk_ready (s := s.accept) hd hv, gatherWalk_eq (s := s.accept) hcap]
  rfl

theorem exec_gather_of_badMagic (hcap : hdrLen ≤ capacity s.pixels d) (hmagic : ¬ magicOk (s.gatherByte d) = true) :
    exec .gather s = .next (Ended.raised .badMagic (s.accept.gatherTo d 0 hdrLen)).finish := by
  rw [exec_gather_of_ready hb hd hv hcap, if_neg hmagic]

theorem exec_gather_of_tooLarge (hcap : hdrLen ≤ capacity s.pixels d) (hmagic : magicOk (s.gatherByte d) = true)
    (hsize : capacity s.pixels d < hdrLen + (headerSize (s.gatherByte d)).toNat) : exec .gather s =
      .next (Ended.raised .insufficientBits (s.accept.gatherTo d 0 hdrLen).recordHeader).finish := by
  rw [exec_gather_of_ready hb hd hv hcap, if_pos hmagic, if_pos hsize]

theorem exec_gather_of_framed (hmagic : magicOk (s.gatherByte d) = true)
    (hsize : hdrLen + (headerSize (s.gatherByte d)).toNat ≤ capacity s.pixels d) :
    exec .gather s = .next (Ended.normally (s.accept.gatherFramed d (headerSize (s.gatherByte d)).toNat)).finish := by
  rw [exec_gather_of_ready hb hd hv ((Nat.le_add_right _ _).trans hsize), if_pos hmagic, if_neg (not_lt.mpr hsize)]

/-- A GATHER of bytes that begin with the header of a framed payload `p` of n bytes (44_gather.md R112). -/
theorem gather_of_framed {p : Nat → Byte} (hp : ∀ j, j < hdrLen → s.gatherByte d j = p j) (hmagic : magicOk p = true)
    {n : Nat} (hn : n = hdrLen + (headerSize p).toNat) (hfits : n ≤ capacity s.pixels d) :
    ∃ t, exec .gather s = .next t ∧ t.EndedWell ∧ t.Results n (n * d.groupsPerByte) (headerSize p).toNat (p 40) ∧
      s.Gathered t d n := by
  obtain ⟨hpmagic, hpsize, _⟩ := header_congr hp
  subst hn
  rw [← hpmagic] at hmagic
  rw [← hpsize] at hfits ⊢
  rw [← hp 40 (by decide)]
  have hexec := exec_gather_of_framed hb hd hv hmagic hfits
  exact ⟨_, hexec, Ended.finish_normally_endedWell rfl rfl, Ended.finish_results (s.accept.gatherFramed_results d _),
    gathered_of_exec (.inl rfl) hexec (s.accept.gatherFramed_payByte d _)⟩

end

/-- Settles O24: the magic and the size are those of the first 41 gathered bytes. -/
theorem gatherCollectsTheFramedPayload : Obligations.GatherCollectsTheFramedPayload := by
  intro s d size hb hd hv _ h0 h1 h2 h3 hsize hfits
  have hmagic : magicOk (s.gatherByte d) = true := (magicOk_iff _).mpr ⟨h0, h1, h2, h3⟩
  rw [← headerSize_toNat] at hsize
  subst hsize
  exact gather_of_framed hb hd hv (fun _ _ => rfl) hmagic rfl hfits

/-- Settles O27: both errors come after the header phase, the second after HDR_SIZE and HDR_FLAGS are recorded. -/
theorem failedGatherKeepsTheGatheredHeader : Obligations.FailedGatherKeepsTheGatheredHeader := by
  refine fun s d hb hd hv hcap => ⟨fun hbytes => ?_, fun size h0 h1 h2 h3 hsize hlarge => ?_⟩
  · have hexec := exec_gather_of_badMagic hb hd hv hcap (mt (magicOk_iff _).mp hbytes)
    exact ⟨_, hexec, Ended.finish_raised_endedWith _ _, Ended.finish_results (s.accept_gatherTo_results d hdrLen),
      gathered_of_exec (.inl rfl) hexec (s.accept.gatherTo_zero_payByte d hdrLen)⟩
  · have hmagic : magicOk (s.gatherByte d) = true := (magicOk_iff _).mpr ⟨h0, h1, h2, h3⟩
    rw [← headerSize_toNat] at hsize
    subst hsize
    have hexec := exec_gather_of_tooLarge hb hd hv hcap hmagic hlarge
    exact ⟨_, hexec, Ended.finish_raised_endedWith _ _, Ended.finish_results (s.accept.recordHeader_results d),
      gathered_of_exec (.inl rfl) hexec fun j => (State.recordHeader_payByte _ j).trans
        (s.accept.gatherTo_zero_payByte d hdrLen j)⟩

/-! ## The channels a gather reads -/

/-- A data command that ends without error has passed the shared checks. -/
theorem ready_of_exec_dataCommand {i : Instr} {body : Depth → State → Ended} (hi : bodyOf i = withLegalWalk body)
    {s t : State} (h : exec i s = .next t) (herr : t.err = false) : s.busy = false ∧ s.ordValid = true ∧
      ∃ d, Depth.ofField s.bpc = some d ∧ t = (body d s.accept).finish := by
  obtain ⟨hb, rfl⟩ := exec_next h
  rw [hi] at herr ⊢
  rcases withLegalWalk_cases body s.accept with ⟨_, e⟩ | ⟨_, _, _, e⟩ | ⟨d, hd, hv, e⟩ <;> rw [e] at herr ⊢
  · cases herr
  · cases herr
  · exact ⟨hb, hv, d, hd, rfl⟩

theorem fits_of_exec_gathern {s t : State} (h : exec .gathern s = .next t) (herr : t.err = false) : s.busy = false ∧
    s.ordValid = true ∧ ∃ d, Depth.ofField s.bpc = some d ∧ s.payLen.toNat ≤ capacity s.pixels d := by
  obtain ⟨hb, hv, d, hd, rfl⟩ := ready_of_exec_dataCommand (body := gathernWalk) rfl h herr
  rcases gathernWalk_cases d s.accept with ⟨_, e⟩ | ⟨hlen, _⟩
  · rw [e] at herr
    cases herr
  · exact ⟨hb, hv, d, hd, hlen⟩

/-- A GATHER without error found a framed payload (44_gather.md R112). -/
theorem framed_of_exec_gather {s t : State} (h : exec .gather s = .next t) (herr : t.err = false) : s.busy = false ∧
    s.ordValid = true ∧ ∃ d, Depth.ofField s.bpc = some d ∧ magicOk (s.gatherByte d) = true ∧
      hdrLen + (headerSize (s.gatherByte d)).toNat ≤ capacity s.pixels d := by
  obtain ⟨hb, hv, d, hd, rfl⟩ := ready_of_exec_dataCommand (body := gatherWalk) rfl h herr
  obtain ⟨hm, hs⟩ := s.accept.gatherTo_header d
  rcases gatherWalk_cases d s.accept with ⟨_, e⟩ | ⟨_, _, e⟩ | ⟨_, _, _, e⟩ | ⟨_, hmagic, hfits, _⟩
  · rw [e] at herr
    cases herr
  · rw [e] at herr
    cases herr
  · rw [e] at herr
    cases herr
  · rw [hs] at hfits
    exact ⟨hb, hv, d, hd, hm.symm.trans hmagic, hfits⟩

/-- RES_LEN does not wrap: a capacity fits 32 bits. -/
theorem State.Results.resLen_toNat {s t : State} {d : Depth} {n m k : Nat} {f : Byte} (h : t.Results n m k f)
    (hn : n ≤ capacity s.pixels d) : t.resLen.toNat = n := by
  obtain ⟨hres, _⟩ := h
  have hcap := s.capacity_lt d
  rw [hres, BitVec.toNat_ofNat, Nat.mod_eq_of_lt (by omega)]

/-- Two gathers of the same bytes with the same result registers. -/
theorem State.Gathered.same {s s' u u' : State} {d : Depth} {n m k : Nat} {f : Byte} (hs : s.Gathered s' d n)
    (hu : u.Gathered u' d n) (hsres : s'.Results n m k f) (hures : u'.Results n m k f)
    (hbytes : ∀ j, j < n → u.gatherByte d j = s.gatherByte d j) :
    u'.resLen = s'.resLen ∧ u'.beats = s'.beats ∧ u'.hdrSize = s'.hdrSize ∧ u'.hdrFlags = s'.hdrFlags ∧
      ∀ j, j < n → u'.payByte j = s'.payByte j := by
  obtain ⟨hspay, _⟩ := hs
  obtain ⟨hupay, _⟩ := hu
  obtain ⟨hsl, hsb, hsz, hsf⟩ := hsres
  obtain ⟨hul, hub, huz, huf⟩ := hures
  exact ⟨hul.trans hsl.symm, hub.trans hsb.symm, huz.trans hsz.symm, huf.trans hsf.symm,
    fun j hj => (hupay j hj).trans ((hbytes j hj).trans (hspay j hj).symm)⟩

/-- Settles O47: the bytes gathered, and with them the header that GATHER decides by, are functions of their channels. -/
theorem gatherReadsOnlyTheChannelsOfItsBytes : Obligations.GatherReadsOnlyTheChannelsOfItsBytes := by
  intro i s u s' d hi hub hops hord hd hexec herr hchannels
  have hbytes : ∀ j, j < s'.resLen.toNat → u.gatherByte d j = s.gatherByte d j := fun j =>
    State.SameChannels.gatherByte fun g hg => by rw [hord.walkAddr, hchannels g hg]
  have hpixels := hops.pixels
  obtain ⟨hbpc, _, _, _, hpayLen⟩ := hops
  have hud : Depth.ofField u.bpc = some d := hbpc ▸ hd
  have huv : s.ordValid = true → u.ordValid = true := hord.1.trans
  rcases hi with rfl | rfl
  · obtain ⟨hb, hv, d', hd', hmagic, hfits⟩ := framed_of_exec_gather hexec herr
    obtain rfl : d' = d := Option.some.inj (hd'.symm.trans hd)
    obtain ⟨t, ht, _, hsres, hsg⟩ := gather_of_framed hb hd hv (fun _ _ => rfl) hmagic rfl hfits
    obtain rfl : t = s' := by rw [hexec] at ht; cases ht; rfl
    rw [hsres.resLen_toNat hfits] at hbytes ⊢
    obtain ⟨u', hu, hwell, hures, hug⟩ := gather_of_framed hub hud (huv hv) (fun j hj => hbytes j (by omega)) hmagic rfl
      (hpixels ▸ hfits)
    exact ⟨u', hu, hwell, hsg.same hug hsres hures hbytes⟩
  · obtain ⟨hb, hv, d', hd', hfits⟩ := fits_of_exec_gathern hexec herr
    obtain rfl : d' = d := Option.some.inj (hd'.symm.trans hd)
    obtain ⟨t, ht, _, hsres, hsg⟩ := gathernCollectsTheStatedBytes s d' hb hd hv hfits
    obtain rfl : t = s' := by rw [hexec] at ht; cases ht; rfl
    rw [hsres.resLen_toNat hfits] at hbytes ⊢
    obtain ⟨u', hu, hwell, hures, hug⟩ := gathernCollectsTheStatedBytes u d' hub hud (huv hv)
      (by rwa [hpixels, hpayLen])
    rw [hpayLen] at hures hug
    exact ⟨u', hu, hwell, State.Gathered.same hsg hug hsres hures hbytes⟩

end Sys2Proof.Machine
end

section
/-! The round trips: what a SCATTER hid, a gather over the same order and image returns, in another unit too
(44_gather.md R114). -/

namespace Sys2Proof.Machine

/-! ## The image a SCATTER leaves -/

/-- Gathering from the image a scatter left gives the payload and behind it the cover's own low bits. -/
theorem State.OrderReady.scatterFrom_gatherByte {s : State} (h : s.OrderReady) {d : Depth} {len j : Nat}
    (hlen : len ≤ capacity s.pixels d) (hj : j < capacity s.pixels d) :
    (s.scatterFrom d len).gatherByte d j = if j < len then s.payByte j else s.gatherByte d j := by
  have hgroups : ∀ n, n ≤ capacity s.pixels d → n * d.groupsPerByte ≤ 3 * s.pixels := fun n hn =>
    (le_capacity_iff _ _ _).mp hn
  split
  · next hin =>
    have hvalues : (s.scatterFrom d len).gatheredGroups d j = groupsOfByte (s.payload len) j d := by
      refine List.map_congr_left fun k hk => ?_
      have hg := d.group_lt hin (List.mem_range.mp hk)
      rw [State.scatterFrom_walkAddr, h.scatterFrom_imgByte_walkAddr hlen (groupCount_eq len d ▸ hg),
        lowBits_insertBits _ (groupValue_toNat_lt _ _ d)]
    rw [State.gatherByte_eq_pack, hvalues, pack_groupsOfByte, s.payload_getD hin]
  · next hout =>
    have hvalues : (s.scatterFrom d len).gatheredGroups d j = s.gatheredGroups d j := by
      refine List.map_congr_left fun k hk => ?_
      have hg := (d.group_lt hj (List.mem_range.mp hk)).trans_le (hgroups _ le_rfl)
      have hbehind : len * d.groupsPerByte ≤ j * d.groupsPerByte := Nat.mul_le_mul_right _ (not_lt.mp hout)
      rw [State.scatterFrom_walkAddr, s.scatterFrom_imgByte_unvisited fun g' hg' he => ?_]
      rw [groupCount_eq] at hg'
      have hsame := h.walkAddr_injective (hg'.trans_le (hgroups len hlen)) hg he
      omega
    rw [State.gatherByte_eq_pack, hvalues, ← State.gatherByte_eq_pack]

/-- The same unit with another MAX_PIXELS. -/
def State.withPixelLimit (s : State) (p : Config.PixelLimit) : State := { s with pixelLimit := p }

theorem State.pixels_of_sides {s t : State} (hw : t.width = s.width) (hh : t.height = s.height) :
    t.pixels = s.pixels := by rw [State.pixels, State.pixels, hw, hh]

/-- A ready table stays one in a state of the same geometry. -/
theorem State.OrderReady.withPixelLimit {s t : State} (h : s.OrderReady) (hw : t.width = s.width)
    (hh : t.height = s.height) (hord : t.ord = s.ord) : (t.withPixelLimit s.pixelLimit).OrderReady := by
  obtain ⟨hfits, hlen, hperm⟩ := h
  rw [← State.pixels_of_sides hw hh] at hfits hlen hperm
  rw [← hord] at hlen hperm
  exact ⟨hfits, hlen, hperm⟩

theorem fits_of_exec_scatter {s t : State} (h : exec .scatter s = .next t) (herr : t.err = false) : s.busy = false ∧
    s.ordValid = true ∧ ∃ d, Depth.ofField s.bpc = some d ∧ s.payLen.toNat ≤ capacity s.pixels d := by
  obtain ⟨hb, hv, d, hd, rfl⟩ := ready_of_exec_dataCommand (body := scatterWalk) rfl h herr
  rcases scatterWalk_cases d s.accept with ⟨_, e⟩ | ⟨hlen, _⟩
  · rw [e] at herr
    cases herr
  · exact ⟨hb, hv, d, hd, hlen⟩

/-! ## The reader of a scattered image -/

/-- A reader `u` of what `s` hid at depth d: it passes the checks of a gather, and the bytes it gathers are the payload of
`s` and behind it those of the cover. -/
structure State.FindsHidden (u s : State) (d : Depth) : Prop where
  depth : Depth.ofField u.bpc = some d
  ordValid : u.ordValid = true
  pixels : u.pixels = s.pixels
  fits : s.payLen.toNat ≤ capacity s.pixels d
  hidden : ∀ j, j < s.payLen.toNat → u.gatherByte d j = s.payByte j
  cover : ∀ j, s.payLen.toNat ≤ j → j < capacity s.pixels d → u.gatherByte d j = s.gatherByte d j

/-- Tables that agree on N defined entries give the same walk over N pixels. -/
theorem State.walkAddr_of_sameEntries {s t : State} {n : Nat} (hdef : n ≤ s.ord.length)
    (hord : ∀ k, k < n → t.ord[k]? = s.ord[k]?) {g : Nat} (hg : g < 3 * n) : t.walkAddr g = s.walkAddr g := by
  have hk : g / 3 < n := by omega
  have hs : s.ord[g / 3]? = some s.ord[g / 3] := List.getElem?_eq_getElem (hk.trans_le hdef)
  rw [t.walkAddr_eq, s.walkAddr_eq, State.ordEntry_of_getElem? hs, State.ordEntry_of_getElem? ((hord _ hk).trans hs)]

/-- A state with the settings, the N order entries and the image of N pixels that a successful SCATTER left finds what it
hid. The order table is a permutation for some MAX_PIXELS: that of `s` itself is not read. -/
theorem findsHidden_of_exec_scatter {s t u : State} {d : Depth} {p : Config.PixelLimit}
    (hready : (s.withPixelLimit p).OrderReady) (hd : Depth.ofField s.bpc = some d) (hexec : exec .scatter s = .next t)
    (herr : t.err = false) (hbpc : u.bpc = t.bpc) (hpixels : u.pixels = t.pixels) (hv : u.ordValid = t.ordValid)
    (hord : ∀ k, k < s.pixels → u.ord[k]? = t.ord[k]?) (himg : ∀ a, a < 3 * s.pixels → u.imgByte a = t.imgByte a) :
    u.FindsHidden s d := by
  obtain ⟨hb, hsv, d', hd', hfits⟩ := fits_of_exec_scatter hexec herr
  obtain rfl : d' = d := Option.some.inj (hd'.symm.trans hd)
  obtain rfl : (s.accept.scatterFrom d' s.payLen.toNat).complete = t := by
    rw [exec_scatter_of_fits hb hd hsv hfits] at hexec
    cases hexec
    rfl
  have hchannels : State.SameChannels (s.accept.scatterFrom d' s.payLen.toNat).complete u (3 * s.pixels) := by
    intro g hg
    rw [State.walkAddr_of_sameEntries hready.pixels_le_length hord hg]
    exact himg _ (hready.walkAddr_lt hg)
  have hgathered : ∀ j, j < capacity s.pixels d' →
      u.gatherByte d' j = if j < s.payLen.toNat then s.payByte j else s.gatherByte d' j := by
    intro j hj
    have hsame : State.SameChannels _ u (capacity s.pixels d' * d'.groupsPerByte) := fun g hg =>
      hchannels g (hg.trans_le ((le_capacity_iff _ _ _).mp le_rfl))
    rw [hsame.gatherByte hj]
    exact State.OrderReady.scatterFrom_gatherByte (s := s.accept.withPixelLimit p) hready hfits hj
  exact
    { depth := hbpc ▸ hd, ordValid := hv.trans hsv, pixels := hpixels, fits := hfits
      hidden := fun j hj => (hgathered j (hj.trans_le hfits)).trans (if_pos hj)
      cover := fun j hj hcap => (hgathered j hcap).trans (if_neg (not_lt.mpr hj)) }

section
variable {u s : State} {d : Depth} (h : u.FindsHidden s d) (hb : u.busy = false)
include h hb

/-- 44_gather.md R114 T1, T4. -/
theorem State.FindsHidden.gathern (hlen : u.payLen.toNat ≤ capacity s.pixels d) :
    ∃ v, exec .gathern u = .next v ∧ v.EndedWell ∧
      (∀ j, j < u.payLen.toNat → j < s.payLen.toNat → v.payByte j = s.payByte j) ∧
      (∀ j, j < u.payLen.toNat → s.payLen.toNat ≤ j → v.payByte j = s.gatherByte d j) := by
  obtain ⟨v, hexec, hwell, _, hpay, _⟩ :=
    gathernCollectsTheStatedBytes u d hb h.depth h.ordValid (h.pixels.symm ▸ hlen)
  exact ⟨v, hexec, hwell, fun j hj hin => (hpay j hj).trans (h.hidden j hin),
    fun j hj hout => (hpay j hj).trans (h.cover j hout (hj.trans_le hlen))⟩

/-- 44_gather.md R114 T2. -/
theorem State.FindsHidden.gather (hmagic : magicOk s.payByte = true)
    (hlen : s.payLen.toNat = 41 + (headerSize s.payByte).toNat) :
    ∃ v, exec .gather u = .next v ∧ v.EndedWell ∧ v.resLen = s.payLen ∧ v.hdrSize = headerSize s.payByte ∧
      v.hdrFlags = s.payByte 40 ∧ ∀ j, j < s.payLen.toNat → v.payByte j = s.payByte j := by
  have hheader : ∀ j, j < hdrLen → u.gatherByte d j = s.payByte j := fun j hj =>
    h.hidden j (hlen ▸ hj.trans_le (Nat.le_add_right _ _))
  obtain ⟨v, hexec, hwell, ⟨hres, _, hsize, hflags⟩, hpay, _⟩ :=
    gather_of_framed hb h.depth h.ordValid hheader hmagic hlen (h.pixels.symm ▸ h.fits)
  rw [BitVec.ofNat_toNat, BitVec.setWidth_eq] at hres hsize
  exact ⟨v, hexec, hwell, hres, hsize, hflags, fun j hj => (hpay j hj).trans (h.hidden j hj)⟩

end

/-! ## The statements -/

theorem ordValid_of_exec_order {s t : State} (h : exec .order s = .next t) (herr : t.err = false) :
    t.ordValid = true := by
  obtain ⟨hb, hfits⟩ := fits_of_exec_select (.inr rfl) h herr
  rw [exec_order_of_fits hb hfits] at h
  cases h
  rfl

/-- Settles O48: the reader has the whole table and image. -/
theorem gathernReturnsWhatScatterHid : Obligations.GathernReturnsWhatScatterHid := by
  intro s t u d hready hd hexec herr hb hbpc hw hh hv hord himg hlen
  have hfinds : u.FindsHidden s d := findsHidden_of_exec_scatter (p := s.pixelLimit) hready hd hexec herr hbpc
    (State.pixels_of_sides hw hh) hv (fun k _ => by rw [hord]) fun a _ => himg a
  exact hfinds.gathern hb hlen

/-- Settles O49: the reader has the whole table and image. -/
theorem gatherReturnsTheFramedPayloadScatterHid : Obligations.GatherReturnsTheFramedPayloadScatterHid := by
  intro s t u d hready hd hmagic hlen hexec herr hb hbpc hw hh hv hord himg
  have hfinds : u.FindsHidden s d := findsHidden_of_exec_scatter (p := s.pixelLimit) hready hd hexec herr hbpc
    (State.pixels_of_sides hw hh) hv (fun k _ => by rw [hord]) fun a _ => himg a
  exact hfinds.gather hb hmagic hlen

/-- Settles O50: both units hold the order of N and the seed, a permutation over the first one's MAX_PIXELS. -/
theorem anotherInstanceGathersWhatWasScattered : Obligations.AnotherInstanceGathersWhatWasScattered := by
  intro s s1 s2 s3 u u1 u2 hpixels hseed hs herrs hu herru hw hh hv hord hscatter herr hb huw huh huv huord hbpc hlen himg
  obtain ⟨hsops, _⟩ := eachMemoryHasItsOnlyWriters .order s s1 hs
  obtain ⟨huops, _⟩ := eachMemoryHasItsOnlyWriters .order u u1 hu
  obtain ⟨htops, _, _, _, htord, _⟩ := eachMemoryHasItsOnlyWriters .scatter s2 s3 hscatter
  obtain ⟨htv, htable, _⟩ := htord (by decide) (by decide)
  obtain ⟨_, horder⟩ := orderDependsOnPixelsAndSeedAlone s u s1 u1 hpixels (congrArg seedState hseed) hs hu herrs herru
  obtain ⟨_, _, d, hd, hfits⟩ := fits_of_exec_scatter hscatter herr
  have hs2 : s2.pixels = s.pixels := (State.pixels_of_sides hw hh).trans hsops.pixels
  have hu2 : u2.pixels = s2.pixels :=
    (State.pixels_of_sides huw huh).trans (huops.pixels.trans (hpixels.symm.trans hs2.symm))
  have hready : (s2.withPixelLimit s1.pixelLimit).OrderReady :=
    (orderReady_of_exec_select (.inr rfl) hs herrs).withPixelLimit hw hh hord
  have hvalid : u2.ordValid = s3.ordValid := by
    rw [huv, htv, hv, ordValid_of_exec_order hu herru, ordValid_of_exec_order hs herrs]
  have hfinds : u2.FindsHidden s2 d := findsHidden_of_exec_scatter hready hd hscatter herr (hbpc.trans htops.1.symm)
    (hu2.trans htops.pixels.symm) hvalid (fun k hk => by rw [huord, htable, hord, horder k (hs2 ▸ hk)])
    (hs2.symm ▸ himg)
  refine ⟨?_, hfinds.gather hb⟩
  obtain ⟨v, hv, hwell, hhidden, _⟩ := hfinds.gathern hb (hlen ▸ hfits)
  exact ⟨v, hv, hwell, fun j hj => hhidden j (hlen ▸ hj) hj⟩

end Sys2Proof.Machine
end

section
/-! What a host access answers (45_system.md R125, R126, R131): reads and writes of the register window, and of the bytes and
entries inside IMG, PAY and ORD. -/

namespace Sys2Proof.Machine

/-! ## Register reads -/

/-- A read of an aligned word is answered while idle; one of STATUS always. -/
theorem transact_regRead_of_good {s : State} {o : Nat} {r : Reg} (hgood : badRegisterAccess o 32 = none)
    (hreg : Reg.atOffset o = r) (h : s.busy = false ∨ r = .status) :
    transact (.regRead o 32) s = .next (s.answer (.reg o (s.regValue r))) := by
  subst hreg
  rcases h with h | h <;> simp [transact, hostRegRead, hgood, h]

theorem Reg.atOffset_eq_status {o : Nat} (h : Reg.atOffset o = .status) : o = 0x18 := by
  unfold Reg.atOffset at h
  split at h <;> cases h
  rfl

/-- While BUSY = 1 a read of another register is refused, if not for its offset or width then for BUSY. -/
theorem transact_regRead_of_busy {s : State} {o n : Nat} (hb : s.busy = true) (ho : Reg.atOffset o ≠ .status) :
    ∃ r, transact (.regRead o n) s = .refused r := by
  cases hbad : badRegisterAccess o n with
  | some r => exact ⟨r, (transact_reg_of_bad hbad s 0).1⟩
  | none => exact ⟨.hostAccessWhileBusy, by simp [transact, hostRegRead, hbad, hb, ho]⟩

/-- The words of the window, CAPACITY last (10_state.md R11). -/
def registerMap : List (Nat × Reg) :=
  [(0x00, .ctrl), (0x04, .width), (0x08, .height), (0x0C, .seed), (0x10, .payLen), (0x14, .cmd), (0x20, .resLen),
    (0x24, .beats), (0x28, .hdrSize), (0x2C, .hdrFlags), (0x30, .prng), (0x34, .reserved), (0x38, .reserved),
    (0x3C, .reserved), (0x1C, .capacity)]

theorem registerMap_row : ∀ p ∈ registerMap, badRegisterAccess p.1 32 = none ∧ Reg.atOffset p.1 = p.2 := by decide

/-- CAPACITY by the field BPC itself (10_state.md R20). -/
theorem State.capacityWord_eq (s : State) : s.capacityWord = if s.bpc = 1 ∨ s.bpc = 2
    then BitVec.ofNat 32 (s.width.toNat * s.height.toNat * 3 * s.bpc.toNat / 8) else 0 := by
  have hcases : ∀ v : BitVec 2, v = 0 ∨ v = 1 ∨ v = 2 ∨ v = 3 := by decide
  unfold State.capacityWord
  rcases hcases s.bpc with h | h | h | h <;> rw [h] <;> rfl

/-- Settles O9: each word of the map answers the value of its register, STATUS also while BUSY = 1. -/
theorem registerReadsReturnTheirRegister : Obligations.RegisterReadsReturnTheirRegister := by
  refine ⟨fun s o hb ho => transact_regRead_of_busy hb (mt Reg.atOffset_eq_status ho), fun s hb => ⟨?_, fun b => ?_⟩⟩
  · rw [← s.capacityWord_eq]
    change ∀ p ∈ registerMap.map fun q => (q.1, s.regValue q.2), _
    intro p hp
    obtain ⟨q, hq, rfl⟩ := List.mem_map.mp hp
    obtain ⟨hgood, hreg⟩ := registerMap_row q hq
    exact transact_regRead_of_good hgood hreg (.inl hb)
  · exact transact_regRead_of_good (r := .status) rfl rfl (.inr rfl)

/-! ## Register writes -/

/-- While idle a write of an aligned word other than CMD does what the table of R126 says. -/
theorem transact_regWrite_of_good {s : State} {o : Nat} {r : Reg} (hb : s.busy = false)
    (hgood : badRegisterAccess o 32 = none) (hreg : Reg.atOffset o = r) (hcmd : r ≠ .cmd) (v : Word) :
    transact (.regWrite o 32 v) s = .next (s.regWrite r v) := by
  subst hreg
  simp [transact, hostRegWrite, hgood, hb, hcmd]

theorem transact_regWrite_of_busy {s : State} (hb : s.busy = true) (o n : Nat) (v : Word) :
    ∃ r, transact (.regWrite o n v) s = .refused r := by
  cases hbad : badRegisterAccess o n with
  | some r => exact ⟨r, (transact_reg_of_bad hbad s v).2⟩
  | none => exact ⟨.hostAccessWhileBusy, by simp [transact, hostRegWrite, hbad, hb]⟩

/-- The low field of a word as a number. -/
theorem extractLsb'_zero_eq_ofNat (v : Word) (n : Nat) : v.extractLsb' 0 n = BitVec.ofNat n (v.toNat % 2 ^ n) :=
  extractLsb'_of_toNat (by simp)

/-- The registers a write has an effect on: the operands and CMD (45_system.md R126). -/
def writableRegisters : List Reg := [.ctrl, .width, .height, .seed, .payLen, .cmd]

/-- A write to any other register is ignored. -/
theorem State.regWrite_of_ignored (s : State) {r : Reg} (h : r ∉ writableRegisters) (v : Word) :
    s.regWrite r v = s := by
  cases r with
  | ctrl | width | height | seed | payLen => simp [writableRegisters] at h
  | _ => rfl

theorem atOffset_of_ignored : ∀ o ∈ [0x18, 0x1C, 0x20, 0x24, 0x28, 0x2C, 0x30, 0x34, 0x38, 0x3C],
    badRegisterAccess o 32 = none ∧ Reg.atOffset o ∉ writableRegisters := by decide

/-- Settles O11: the five operand registers, CMD, and the words whose writes are ignored. -/
theorem registerWritesChangeTheirRegisterOnly : Obligations.RegisterWritesChangeTheirRegisterOnly := by
  refine ⟨fun s o v hb => transact_regWrite_of_busy hb o 32 v, fun s v hb => ?_⟩
  have hbpc := extractLsb'_zero_eq_ofNat v 2
  have hside := extractLsb'_zero_eq_ofNat v 16
  refine ⟨?_, ?_, ?_, transact_regWrite_of_good hb rfl rfl (by decide) v,
    transact_regWrite_of_good hb rfl rfl (by decide) v, transact_commandWrite v s, fun o ho => ?_⟩
  · exact hbpc ▸ transact_regWrite_of_good hb rfl rfl (by decide) v
  · exact hside ▸ transact_regWrite_of_good hb rfl rfl (by decide) v
  · exact hside ▸ transact_regWrite_of_good hb rfl rfl (by decide) v
  · obtain ⟨hgood, hignored⟩ := atOffset_of_ignored o ho
    have hcmd : Reg.atOffset o ≠ .cmd := fun h => hignored (h ▸ by decide)
    rw [transact_regWrite_of_good hb hgood rfl hcmd, s.regWrite_of_ignored hignored]

/-! ## IMG, PAY and ORD -/

/-- IMG after a store: one byte changed. -/
theorem State.storeImg_imgByte (s : State) (a b : Nat) (v : Byte) :
    State.imgByte { s with img := s.img.store a v } b = if b = a then v else s.imgByte b :=
  s.img.readAs_store .img s.memEpoch a b v

/-- PAY after a store: one byte changed. -/
theorem State.storePay_payByte (s : State) (a b : Nat) (v : Byte) :
    State.payByte { s with pay := s.pay.store a v } b = if b = a then v else s.payByte b :=
  s.pay.readAs_store .pay s.memEpoch a b v

/-- A read of a defined entry of ORD answers it and changes nothing. -/
theorem State.readOrder_of_getElem? {s : State} {k : Nat} {w : Word} (h : s.ord[k]? = some w) :
    s.readOrder k = s.answer (.ord k w) := by
  have hk : k < s.ord.length := (List.getElem?_eq_some_iff.mp h).1
  simp [State.readOrder, hk, State.ordEntry_of_getElem? h]

/-- A read of any entry of ORD touches no register, no entry and no byte. -/
theorem State.readOrder_frame (s : State) (k : Nat) : (s.readOrder k).readback = .ord k (s.ordEntry k) :: s.readback ∧
    (s.readOrder k).ord = s.ord ∧ (∀ r, (s.readOrder k).regValue r = s.regValue r) ∧ s.SameImage (s.readOrder k) ∧
    s.SamePayload (s.readOrder k) := by
  rcases s.readOrder_cases k with h | h <;> rw [h] <;> exact ⟨rfl, rfl, fun _ => rfl, fun _ => rfl, fun _ => rfl⟩

/-- Settles O15: every access is inside its space, so it has its effect: one byte stored, one value answered, or none. -/
theorem hostMemoryAccessesTouchOneCell : Obligations.HostMemoryAccessesTouchOneCell := by
  intro s hb
  simp only [transact]
  refine ⟨fun a v ha => ⟨_, hostMemAccess_idle hb (decide_eq_true ha), ?_⟩,
    fun a v ha => ⟨_, hostMemAccess_idle hb (decide_eq_true ha), ?_⟩,
    fun a ha => hostMemAccess_idle hb (decide_eq_true ha), fun a ha => hostMemAccess_idle hb (decide_eq_true ha),
    fun k hk => ⟨_, hostMemAccess_idle hb (decide_eq_true hk), fun w hw => State.readOrder_of_getElem? hw, ?_⟩,
    fun k _ hk => hostMemAccess_idle hb (decide_eq_true hk)⟩
  · exact ⟨(s.storeImg_imgByte a a v).trans (if_pos rfl), fun b hne => (s.storeImg_imgByte a b v).trans (if_neg hne),
      fun _ => rfl, ⟨rfl, rfl, rfl⟩, fun _ => rfl, ⟨rfl, rfl, rfl, rfl⟩⟩
  · exact ⟨(s.storePay_payByte a a v).trans (if_pos rfl), fun b hne => (s.storePay_payByte a b v).trans (if_neg hne),
      fun _ => rfl, ⟨rfl, rfl, rfl⟩, fun _ => rfl, ⟨rfl, rfl, rfl, rfl⟩⟩
  · obtain ⟨hread, hframe⟩ := s.readOrder_frame k
    exact ⟨⟨_, hread⟩, hframe⟩

end Sys2Proof.Machine
end

section
/-! The command port: acceptance, and what a CMD write of any word, legal or not, answers (45_system.md R127 to R130). -/

namespace Sys2Proof.Machine

/-! ## Acceptance -/

/-- Acceptance clears the result registers. -/
theorem State.accept_results (s : State) : s.accept.Results 0 0 0 0 := ⟨rfl, rfl, rfl, rfl⟩

/-- While a command runs STATUS shows BUSY and ORD_VALID alone (45_system.md R133). -/
theorem State.accept_statusWord (s : State) : s.accept.statusWord = BitVec.ofNat 32 (1 + 8 * s.ordValid.toNat) := by
  simp [State.statusWord]

/-- Settles O17: the fields one by one; the frame is that of acceptance. -/
theorem acceptanceClearsStatusAndResults : Obligations.AcceptanceClearsStatusAndResults := fun s =>
  ⟨s.accept_busy, s.accept_done, s.accept_err, s.accept_errcode, s.accept_results, s.accept_sameButStatus,
    s.accept_statusWord⟩

/-! ## NOP and the illegal words -/

/-- Settles O18: between acceptance and completion nothing happens. -/
theorem nopClearsStatusAndResults : Obligations.NopClearsStatusAndResults :=
  ⟨decode_encode .nop, fun s hb => ⟨_, exec_idle .nop hb, Ended.finish_normally_endedWell s.accept_err s.accept_errcode,
    s.accept_results, s.accept_sameButStatus⟩⟩

/-- A CMD write of a word the decoder refuses raises InvalidCommand at once. -/
theorem transact_commandWrite_of_illegal {w : Word} {e : IllegalWord} {s : State} (hb : s.busy = false)
    (h : decode w = .error e) :
    transact (commandWrite w) s = .next (Ended.raised .invalidCommand s.accept).finish := by
  rw [transact_commandWrite, runWord, h]
  exact runCommand_idle hb

/-- Settles O19: the error is recorded in the accepted state. -/
theorem illegalWordEndsWithInvalidCommand : Obligations.IllegalWordEndsWithInvalidCommand := fun s _ _ hb h =>
  ⟨_, transact_commandWrite_of_illegal hb h, Ended.finish_raised_endedWith _ _, s.accept_results,
    s.accept_sameButStatus⟩

/-! ## Every word -/

/-- A CMD write of any word is a command's end whose body left ERR and ERRCODE as acceptance cleared them. -/
theorem exists_transact_commandWrite_idle (w : Word) {s : State} (hb : s.busy = false) :
    ∃ e : Ended, transact (commandWrite w) s = .next e.finish ∧ e.last.err = false ∧ e.last.errcode = 0 := by
  cases h : decode w with
  | ok i => exact ⟨_, (transact_commandWrite_of_decode h s).trans (exec_idle i hb), bodyOf_last_status i s.accept⟩
  | error k => exact ⟨_, transact_commandWrite_of_illegal hb h, rfl, rfl⟩

/-- The epilogue sets BUSY, DONE, ERR and ERRCODE consistently (45_system.md R128). -/
theorem Ended.finish_status {e : Ended} (herr : e.last.err = false) (hcode : e.last.errcode = 0) :
    e.finish.busy = false ∧ e.finish.done = true ∧ (e.finish.err = true ↔ e.finish.errcode ≠ 0) ∧
      e.finish.errcode.toNat ≤ 6 := by
  cases e with
  | normally s =>
    have herr : s.err = false := herr
    have hcode : s.errcode = 0 := hcode
    exact ⟨rfl, rfl, by simp [herr, hcode], by simp [hcode]⟩
  | raised k s =>
    obtain ⟨hne, hle⟩ := k.code_range
    exact ⟨rfl, rfl, ⟨fun _ => hne, fun _ => rfl⟩, hle⟩

/-- Settles O31: STATUS is the epilogue's, and no command word touches what the host has queued or read. -/
theorem everyCommandCompletes : Obligations.EveryCommandCompletes := by
  intro s w hb
  obtain ⟨e, hnext, herr, hcode⟩ := exists_transact_commandWrite_idle w hb
  obtain ⟨hbusy, hdone, hiff, hle⟩ := Ended.finish_status herr hcode
  obtain ⟨hscript, hreadback, _⟩ := runWord_sameSurroundings ((transact_commandWrite w s).symm.trans hnext)
  exact ⟨_, hnext, hbusy, hdone, hiff, hle, hscript, hreadback⟩

end Sys2Proof.Machine
end

section
/-! Errors (60_exceptions.md): the order of the checks, what a failed command has written, the cause of each error code, and
that nothing of the last command's STATUS and results is read. -/

namespace Sys2Proof.Machine

/-! ## Nothing sticky -/

/-- A command reads of a state no more than BUSY and what acceptance leaves. -/
theorem exec_congr_accept (i : Instr) {s t : State} (hbusy : t.busy = s.busy) (haccept : t.accept = s.accept) :
    exec i t = exec i s := by
  rw [exec_eq, exec_eq, runCommand, runCommand, hbusy, haccept]

/-- Settles O35: acceptance overwrites every one of these registers. -/
theorem previousStatusAndResultsAreNeverRead : Obligations.PreviousStatusAndResultsAreNeverRead :=
  fun i _ _ _ _ _ _ _ _ => exec_congr_accept i rfl rfl

/-! ## The order of the checks -/

/-- Settles O25: both checks are in the part that the three bodies share. -/
theorem dataCommandsCheckDepthThenOrder : Obligations.DataCommandsCheckDepthThenOrder := by
  intro s i hb hi
  obtain ⟨body, hbody⟩ := exists_bodyOf_eq_withLegalWalk hi
  refine ⟨fun hillegal => exec_of_raised hb ?_, fun hlegal hv => exec_of_raised hb ?_⟩
  · rw [hbody]
    exact withLegalWalk_of_illegalDepth body (Depth.ofField_eq_none hillegal)
  · obtain ⟨d, hd⟩ := Depth.exists_ofField hlegal
    rw [hbody]
    exact withLegalWalk_of_noOrder body hd hv

/-- Settles O26: past the shared checks the capacity is the first thing each body looks at. -/
theorem tooSmallImageIsReportedBeforeAnyWrite : Obligations.TooSmallImageIsReportedBeforeAnyWrite := by
  refine fun s d hb hd hv => ⟨fun hlen => exec_of_raised hb ?_, fun hlen => exec_of_raised hb ?_,
    fun hcap => exec_of_raised hb ?_⟩
  · exact (withLegalWalk_ready (body := scatterWalk) (s := s.accept) hd hv).trans (if_pos hlen)
  · exact (withLegalWalk_ready (body := gathernWalk) (s := s.accept) hd hv).trans (if_pos hlen)
  · exact (withLegalWalk_ready (body := gatherWalk) (s := s.accept) hd hv).trans (if_pos hcap)

/-! ## What a failed command has written -/

/-- ERR is set by the epilogue of a raised error alone. -/
theorem Ended.exists_raised_of_finish_err {e : Ended} (hlast : e.last.err = false) (herr : e.finish.err = true) :
    ∃ k u, e = .raised k u := by
  cases e with
  | normally s => exact absurd (herr.symm.trans hlast) (by decide)
  | raised k u => exact ⟨k, u, rfl⟩

/-- A body that raises an error has done nothing, or it is GATHER's and the header phase is done. -/
theorem bodyOf_raised {i : Instr} {s u : State} {k : ErrorKind} (h : bodyOf i s = .raised k u) :
    u = s ∨ (i = .gather ∧ ∃ d, u = s.gatherTo d 0 hdrLen ∨ u = (s.gatherTo d 0 hdrLen).recordHeader) := by
  rcases bodyOf_cases i s with ⟨_, e⟩ | ⟨_, e⟩ | ⟨_, _, e⟩ | ⟨_, _, e⟩ |
    ⟨d, _, _, ⟨_, _, e⟩ | ⟨_, _, e⟩ | ⟨hi, _, e | e | ⟨_, _, e⟩⟩⟩ <;> cases h.symm.trans e
  · exact .inl rfl
  · exact .inr ⟨hi, d, .inl rfl⟩
  · exact .inr ⟨hi, d, .inr rfl⟩

/-- A failed command has changed STATUS and the result registers alone, or it is a GATHER that has gathered its header. -/
theorem failed_of_exec {i : Instr} {s t : State} (h : exec i s = .next t) (herr : t.err = true) :
    s.SameButStatus t ∨ (i = .gather ∧ ∃ d, s.Gathered t d hdrLen) := by
  obtain ⟨_, rfl⟩ := exec_next h
  obtain ⟨hlast, _⟩ := bodyOf_last_status i s.accept
  obtain ⟨k, u, hbody⟩ := Ended.exists_raised_of_finish_err hlast herr
  rw [hbody] at h ⊢
  rcases bodyOf_raised hbody with rfl | ⟨rfl, d, rfl | rfl⟩
  · exact .inl s.accept_sameButStatus
  · exact .inr ⟨rfl, d, gathered_of_exec (.inl rfl) h (s.accept.gatherTo_zero_payByte d hdrLen)⟩
  · exact .inr ⟨rfl, d, gathered_of_exec (.inl rfl) h fun j => (State.recordHeader_payByte _ j).trans
      (s.accept.gatherTo_zero_payByte d hdrLen j)⟩

/-- Settles O28: the two ways to fail, each with its frame. -/
theorem failedCommandsWriteNothing : Obligations.FailedCommandsWriteNothing := by
  intro i s t hexec herr
  rcases failed_of_exec hexec herr with ⟨hops, hord, hprng, himg, hpay, hsur⟩ |
    ⟨hi, _, _, hpay, hops, hord, hprng, himg, hsur⟩
  · exact ⟨hops, hord, hprng, himg, hsur, fun _ => hpay, fun j _ => hpay j⟩
  · exact ⟨hops, hord, hprng, himg, hsur, fun hne => absurd hi hne, hpay⟩

/-! ## The cause of each error -/

/-- The cause for which command `i` given in state `s` ends with an error, `t` being the state it ends in
(60_exceptions.md R142 to R147). No command of the table raises InvalidCommand. -/
def ErrorKind.Cause (i : Instr) (s t : State) : ErrorKind → Prop
  | .invalidConfiguration => ((i = .scatter ∨ i = .gather ∨ i = .gathern) ∧ (s.bpc = 0 ∨ s.bpc = 3)) ∨
      ((i = .ident ∨ i = .order) ∧ s.maxPixels < s.pixels)
  | .capacityExceeded => i = .scatter ∧ ∃ d, Depth.ofField s.bpc = some d ∧ capacity s.pixels d < s.payLen.toNat
  | .badMagic => i = .gather ∧ ¬ magicOk t.payByte = true
  | .insufficientBits => ∃ d, Depth.ofField s.bpc = some d ∧
      ((i = .gathern ∧ capacity s.pixels d < s.payLen.toNat) ∨
        (i = .gather ∧ capacity s.pixels d < hdrLen + t.hdrSize.toNat))
  | .orderNotReady => (i = .scatter ∨ i = .gather ∨ i = .gathern) ∧ s.ordValid = false ∧ (s.bpc = 1 ∨ s.bpc = 2)
  | .invalidCommand => False

theorem Depth.field_of_ofField_none : ∀ {v : BitVec 2}, Depth.ofField v = none → v = 0 ∨ v = 3 := by decide

theorem Depth.field_of_ofField_some {v : BitVec 2} {d : Depth} (h : Depth.ofField v = some d) : v = 1 ∨ v = 2 := by
  revert v
  cases d <;> decide

/-- The shared checks raise their two errors for their causes; what is left is the rest of the body. -/
theorem cause_of_withLegalWalk {i : Instr} (hi : i = .scatter ∨ i = .gather ∨ i = .gathern)
    {body : Depth → State → Ended} {s u : State} {k : ErrorKind} (h : withLegalWalk body s = .raised k u)
    (hrest : ∀ d, Depth.ofField s.bpc = some d → body d s = .raised k u → k.Cause i s u) : k.Cause i s u := by
  rcases withLegalWalk_cases body s with ⟨hd, e⟩ | ⟨d, hd, hv, e⟩ | ⟨d, hd, _, e⟩
  · cases h.symm.trans e
    exact .inl ⟨hi, Depth.field_of_ofField_none hd⟩
  · cases h.symm.trans e
    exact ⟨hi, hv, Depth.field_of_ofField_some hd⟩
  · exact hrest d hd (e.symm.trans h)

/-- Every error a body raises has its cause. -/
theorem cause_of_bodyOf {i : Instr} {s u : State} {k : ErrorKind} (h : bodyOf i s = .raised k u) : k.Cause i s u := by
  cases i with
  | nop => cases h
  | ident =>
    rcases identBody_cases s with ⟨hlarge, e⟩ | ⟨_, e⟩ <;> cases h.symm.trans e
    exact .inr ⟨.inl rfl, hlarge⟩
  | order =>
    rcases orderBody_cases s with ⟨hlarge, e⟩ | ⟨_, e⟩ <;> cases h.symm.trans e
    exact .inr ⟨.inr rfl, hlarge⟩
  | scatter =>
    refine cause_of_withLegalWalk (.inl rfl) h fun d hd hwalk => ?_
    rcases scatterWalk_cases d s with ⟨hlen, e⟩ | ⟨_, e⟩ <;> cases hwalk.symm.trans e
    exact ⟨rfl, d, hd, hlen⟩
  | gather =>
    refine cause_of_withLegalWalk (.inr (.inl rfl)) h fun d hd hwalk => ?_
    rcases gatherWalk_cases d s with ⟨hcap, e⟩ | ⟨_, hmagic, e⟩ | ⟨_, _, hsize, e⟩ | ⟨_, _, _, e⟩ <;>
      cases hwalk.symm.trans e
    · exact ⟨d, hd, .inr ⟨rfl, Nat.lt_add_right _ hcap⟩⟩
    · exact ⟨rfl, ne_true_of_eq_false hmagic⟩
    · exact ⟨d, hd, .inr ⟨rfl, hsize⟩⟩
  | gathern =>
    refine cause_of_withLegalWalk (.inr (.inr rfl)) h fun d hd hwalk => ?_
    rcases gathernWalk_cases d s with ⟨hlen, e⟩ | ⟨_, e⟩ <;> cases hwalk.symm.trans e
    exact ⟨d, hd, .inl ⟨rfl, hlen⟩⟩

theorem ErrorKind.code_injective : Function.Injective ErrorKind.code := by
  intro k l
  cases k <;> cases l <;> decide

/-- A command that ends with an error's code ends with that error, for its cause. -/
theorem cause_of_errcode {i : Instr} {s t : State} (h : exec i s = .next t) {k : ErrorKind} (hcode : t.errcode = k.code) :
    k.Cause i s t := by
  obtain ⟨_, rfl⟩ := exec_next h
  obtain ⟨_, hlast⟩ := bodyOf_last_status i s.accept
  obtain ⟨hne, _⟩ := k.code_range
  cases hbody : bodyOf i s.accept with
  | normally u =>
    rw [hbody] at hcode hlast
    exact absurd (hcode.symm.trans hlast) hne
  | raised l u =>
    rw [hbody] at hcode
    cases ErrorKind.code_injective hcode
    have hcause := cause_of_bodyOf hbody
    cases k <;> exact hcause

/-- Settles O29: the cause of each code, read off; the epilogue's STATUS bounds the code by 6, and 6 has no cause. -/
theorem errorsComeOnlyFromTheirCommandsAndCauses : Obligations.ErrorsComeOnlyFromTheirCommandsAndCauses := by
  refine ⟨fun i s t hexec => ?_, fun s t hexec => ?_⟩
  · have hcause (k : ErrorKind) (hcode : t.errcode = k.code) : k.Cause i s t := cause_of_errcode hexec hcode
    have hbound : t.errcode.toNat ≤ 6 ∧ (t.err = true ↔ t.errcode ≠ 0) := by
      obtain ⟨_, rfl⟩ := exec_next hexec
      obtain ⟨herr, hcode⟩ := bodyOf_last_status i s.accept
      obtain ⟨_, _, hiff, hle⟩ := Ended.finish_status herr hcode
      exact ⟨hle, hiff⟩
    obtain ⟨hle, hiff⟩ := hbound
    have hne : t.errcode.toNat ≠ 6 := fun hsix => hcause .invalidCommand (BitVec.eq_of_toNat_eq hsix)
    exact ⟨hcause .invalidConfiguration, hcause .capacityExceeded,
      fun hcode => (hcause .badMagic hcode).imp_right (mt (magicOk_iff _).mpr), hcause .insufficientBits,
      hcause .orderNotReady, by omega, hiff⟩
  · obtain ⟨_, rfl⟩ := runCommand_next hexec
    rfl

end Sys2Proof.Machine
end

section
/-! The busy rule (70_reset_and_hazards.md R162): what a unit with BUSY = 1 refuses. -/

namespace Sys2Proof.Machine

/-- While BUSY = 1 a read of STATUS is refused for its width alone, a read of another register always. -/
theorem transact_regRead_of_busy_of_ne {s : State} {o n : Nat} (hb : s.busy = true)
    (hne : BusAction.regRead o n ≠ .regRead 0x18 32) : ∃ r, transact (.regRead o n) s = .refused r := by
  by_cases hreg : Reg.atOffset o = .status
  · have hwidth : n ≠ 32 := fun hn => hne (by rw [Reg.atOffset_eq_status hreg, hn])
    exact ⟨_, (transact_reg_of_bad (badRegisterAccess_of_width hwidth) s 0).1⟩
  · exact transact_regRead_of_busy hb hreg

/-- While BUSY = 1 no memory access is answered, inside its space or outside. -/
theorem hostMemAccess_busy {inside : Bool} {f : Fault} {eff : State → State} {s : State} (hb : s.busy = true) :
    hostMemAccess inside f eff s = .refused .hostAccessWhileBusy := if_pos hb

/-- Settles O13: register reads, register writes and memory accesses, each by its own check of BUSY; a STATUS read
passes that check and a command does not. -/
theorem busyUnitRefusesAllButStatusReads : Obligations.BusyUnitRefusesAllButStatusReads := by
  refine fun s hb => ⟨fun act hreset hstatus => ?_,
    ⟨_, transact_regRead_of_good (r := .status) rfl rfl (.inr rfl)⟩,
    fun i => (exec_eq i s).trans (runCommand_busy hb), runCommand_busy hb⟩
  cases act with
  | regRead o n => exact transact_regRead_of_busy_of_ne hb hstatus
  | regWrite o n v => exact transact_regWrite_of_busy hb o n v
  | imgRead | imgWrite | payRead | payWrite | ordRead | ordWrite =>
    exact ⟨.hostAccessWhileBusy, by simp only [transact, hostMemAccess_busy hb]⟩
  | platformReset => exact absurd rfl hreset

end Sys2Proof.Machine
end
